-- ==== Sys2Proof/Word.lean ====
section
/-! DEFINITION. The word types of the block, each with the width rule R13 (spec/00_scope.md) gives it, the ordered
triple of levels (R24), and the one arithmetic operator of the spec's notation that is not Lean's own (R11). -/

namespace Sys2Proof

/-- Bus data, 32 bits (R13). -/
abbrev BusData := BitVec 32
/-- The word address of a host register, 2 bits (R41). -/
abbrev BusAddr := BitVec 2
/-- A transaction word of format BUS, 35 bits (R61). -/
abbrev BusWord := BitVec 35
/-- An event code of format PORT, 2 bits (R62). -/
abbrev PortCode := BitVec 2
/-- A Level, 4 bits, every value 0 to 15 legal (R14, R24). -/
abbrev Level := BitVec 4
/-- A Frequency, 8 bits (R25). -/
abbrev Freq := BitVec 8
/-- A tick duration in time units, 12 bits (R13, R28). -/
abbrev Tick := BitVec 12
/-- A channel, one of 0, 1, 2 (R10). -/
abbrev Channel := Fin 3

/-- ChannelLevels: one Level for each channel (R24, R27). -/
structure Levels where
  ch0 : Level
  ch1 : Level
  ch2 : Level
deriving DecidableEq, Repr, Inhabited

/-- `clamp(v, lo, hi)` of R11. -/
def clamp (v lo hi : Nat) : Nat := min (max v lo) hi

end Sys2Proof
end

