-- ==== Sys2Proof/Syntax.lean ====
section
/-! DEFINITION. The instructions (one constructor for each row of spec/opcode_table.json), the input signals of one
cycle (R36), and the assembler's lines (R70, R71 of spec/30_encoding.md). -/

namespace Sys2Proof

/-- The operations the block's inputs can request: eight bus commands, each with the DATA field of its word (a read,
WR_FREQ and WR_TICK ignore theirs, R63), and three port events. RESET keeps the `tu_en` bit of its code, which it
ignores (R67). -/
inductive Instr where
  | rdLevels (data : BusData)
  | rdFreq (data : BusData)
  | rdFreqlv (data : BusData)
  | rdTick (data : BusData)
  | wrLevels (data : BusData)
  | wrFreq (data : BusData)
  | wrFreqlv (data : BusData)
  | wrTick (data : BusData)
  | idle
  | tuStep
  | reset (t : Bool)
deriving DecidableEq, Repr

/-- The four host registers, in the order of the register map (R41). -/
inductive Reg where
  | levels
  | freq
  | freqlv
  | tick
deriving DecidableEq, Repr

/-- The two encoding formats (R60). -/
inductive Format where
  | bus
  | port
deriving DecidableEq, Repr

/-- An encoded operation: a word of one of the two formats (R60). -/
inductive RawWord where
  | bus (txn : BusWord)
  | port (ev : PortCode)
deriving DecidableEq, Repr

/-- The input signals of one clock cycle, under the names of R36. `clk` is the step itself. -/
structure Pins where
  rst : Bool
  tuEn : Bool
  busValid : Bool
  busWe : Bool
  busAddr : BusAddr
  busWdata : BusData
deriving DecidableEq, Repr, Inhabited

namespace Asm

/-- `<event>` of an assembler line (R70). -/
inductive Event where
  | idle
  | tu
  | reset
deriving DecidableEq, Repr

/-- `<command>` of an assembler line (R70); the immediate is the number as written, of any size. -/
inductive Command where
  | rd (r : Reg)
  | wr (r : Reg) (imm : Nat)
deriving DecidableEq, Repr

/-- A line of a program: one cycle (R70), or a pseudo-instruction (R71). -/
inductive Line where
  | cycle (event : Option Event) (command : Option Command)
  | tuTimes (n : Nat)
  | idleTimes (n : Nat)
  | nop
  | setlv (l0 l1 l2 : Nat)
  | setf (level : Nat)
deriving DecidableEq, Repr

end Asm

end Sys2Proof
end

