-- ==== Sys2Proof/Config.lean ====
section
/-! DEFINITION. The implementation parameters of R6 (spec/00_scope.md), each a named constant as item I1 of
spec/93_implementation_defined.md asks, and the values the spec leaves open, each an opaque constant. -/

namespace Sys2Proof.Config

/-- `LEVELS`, the number of levels (R6). UNVERIFIED literal, log entry 7. -/
def levels : Nat := 16
/-- `NCH`, the number of channels and output lines (R6). -/
def nch : Nat := 3
/-- `K`, the conversion constant (R6). UNVERIFIED literal, log entry 7. -/
def k : Nat := 1000000
/-- `FMIN` (R6). UNVERIFIED literal, log entry 7. -/
def fMin : Nat := 10
/-- `FMAX` (R6). UNVERIFIED literal, log entry 7. -/
def fMax : Nat := 160
/-- `FSTEP`, the frequency step of one level (R6). UNVERIFIED literal, log entry 7. -/
def fStep : Nat := 10
/-- `FOFF`, the frequency offset (R6). UNVERIFIED literal, log entry 7. -/
def fOff : Nat := 10
/-- `LEVEL_DEFAULT` = `LEVELS` - 1 (R6). -/
def levelDefault : Level := BitVec.ofNat 4 (levels - 1)
/-- `FREQ_DEFAULT` (R6, decision D15). UNVERIFIED literal, log entry 7. -/
def freqDefault : Freq := 100#8

/-- `TU_PERIOD`, the physical duration of one time unit in seconds: OPEN (R6, decision D2), so it has no body.
DESIGN CHOICE of the unit, log entry 10. -/
opaque tuPeriod : Rat

/-- The input signals of a cycle for which no program line is given: any values (R8). A free value, log entry 2. -/
opaque freePins : Nat → Pins

/-- `tick_duration` of a frequency outside [10, 160], for which R81 states no result. A free value, log entry 5. -/
opaque tickOffRange : Freq → Tick

/-- The state before the first RESET is unspecified (R38): each element is a free value, log entry 4. -/
opaque powerUpLv : Levels
/-- FREQ before the first RESET, unspecified (R38). -/
opaque powerUpFreq : Freq
/-- SNAP_LV before the first RESET, unspecified (R38). -/
opaque powerUpSnapLv : Levels
/-- SNAP_TICK before the first RESET, unspecified (R38). -/
opaque powerUpSnapTick : Tick
/-- CH before the first RESET, unspecified (R38). -/
opaque powerUpCh : BitVec 2
/-- POS before the first RESET, unspecified (R38). -/
opaque powerUpPos : BitVec 4
/-- SUB before the first RESET, unspecified (R38). -/
opaque powerUpSub : BitVec 12
/-- `bus_rdata` before the first RESET: no meaning (R38). -/
opaque powerUpRdata : BusData

end Sys2Proof.Config
end

