-- ==== Sys2Proof/WellFormed.lean ====
section
/-! DEFINITION. Which encoded numbers and which assembler lines are well formed. Every term of `Instr` is: its operands
have exactly the widths of their fields, and no encoding is illegal (R68 of spec/30_encoding.md). -/

namespace Sys2Proof

/-- How many bits a word of the format has (R60, R69). -/
def Format.width : Format → Nat
  | .bus => 35
  | .port => 2

/-- A number is a word of the format exactly if it fits the format's width (R60: "there are no other lengths"). -/
def Format.fits (f : Format) (w : Nat) : Bool := decide (w < 2 ^ f.width)

namespace Asm

/-- `<imm>` is at most 0xFFFFFFFF: "The assembler refuses a negative literal or one that needs more than 32 bits"
(R70; a negative literal has no term here and no token, log entry 11). -/
def immFits (n : Nat) : Bool := decide (n ≤ 0xFFFFFFFF)

/-- "the assembler refuses any `li` > 15" (R71). -/
def levelFits (n : Nat) : Bool := decide (n ≤ 15)

/-- A repetition count is at least 1 (R71). -/
def countFits (n : Nat) : Bool := decide (1 ≤ n)

/-- The command's immediate, if it has one, fits (R70). -/
def Command.wf : Command → Bool
  | .rd _ => true
  | .wr _ imm => immFits imm

/-- The assembler's checks of one line (R70, R71). -/
def Line.wf : Line → Bool
  | .cycle _ none => true
  | .cycle _ (some c) => c.wf
  | .tuTimes n => countFits n
  | .idleTimes n => countFits n
  | .nop => true
  | .setlv l0 l1 l2 => levelFits l0 && levelFits l1 && levelFits l2
  | .setf level => immFits level

end Asm

end Sys2Proof
end

