-- ==== Sys2Proof/Decode.lean ====
section
/-! DEFINITION. Decoding and encoding of bus words and port codes (spec/30_encoding.md R60 to R69), and between the
input signals of a cycle and its two words. -/

namespace Sys2Proof

/-- The event of a port code `{R, T}` (R67). Total: every code is assigned. -/
def decodePort (ev : PortCode) : Instr :=
  match ev.getLsbD 1, ev.getLsbD 0 with
  | false, false => .idle
  | false, true => .tuStep
  | true, t => .reset t

/-- The command of a bus word: the opcode is `txn[34:32]` = `{WE, ADDR}` (R66), the operand `DATA` is `txn[31:0]`
(R61). Total: all eight opcodes are assigned. -/
def decodeBus (txn : BusWord) : Instr :=
  let data : BusData := txn.extractLsb' 0 32
  match txn.getLsbD 34, txn.getLsbD 33, txn.getLsbD 32 with
  | false, false, false => .rdLevels data
  | false, false, true => .rdFreq data
  | false, true, false => .rdFreqlv data
  | false, true, true => .rdTick data
  | true, false, false => .wrLevels data
  | true, false, true => .wrFreq data
  | true, true, false => .wrFreqlv data
  | true, true, true => .wrTick data

/-- Decoding a word of either format. No word is refused (R68). -/
def decode : RawWord → Instr
  | .bus txn => decodeBus txn
  | .port ev => decodePort ev

/-- Why a number is not decoded: it is not a word of the format (R60). -/
inductive DecodeError where
  /-- The number needs more than the 35 bits of format BUS. -/
  | notABusWord
  /-- The number needs more than the 2 bits of format PORT. -/
  | notAPortCode
deriving DecidableEq, Repr

/-- The word of a format that a number is, refused by name where it is too wide (R60, R69). -/
def rawWord (f : Format) (w : Nat) : Except DecodeError RawWord :=
  match f with
  | .bus => if Format.bus.fits w then .ok (.bus (BitVec.ofNat 35 w)) else .error .notABusWord
  | .port => if Format.port.fits w then .ok (.port (BitVec.ofNat 2 w)) else .error .notAPortCode

/-- Decoding any number, as a word of the given format. -/
def decodeNat (f : Format) (w : Nat) : Except DecodeError Instr :=
  match rawWord f w with
  | .ok r => .ok (decode r)
  | .error e => .error e

/-- The format of a row of the opcode table, from how many bits the row has in whole bytes: 8 for the 2 bits of PORT,
40 for the 35 bits of BUS. DESIGN CHOICE, log entry 8. -/
def tableFormat (nbits : Nat) : Format := if nbits ≤ 8 then .port else .bus

/-- The instruction the decoder reads from a table row's word. -/
def decodeTableWord (nbits w : Nat) : Option Instr :=
  match decodeNat (tableFormat nbits) w with
  | .ok i => some i
  | .error _ => none

/-- The bus word `{WE, ADDR, DATA}` (R61). -/
def busWordOf (we : Bool) (addr : BusAddr) (data : BusData) : BusWord := BitVec.ofBool we ++ (addr ++ data)

/-- The port code `{rst, tu_en}` (R62). -/
def portCodeOf (rst tuEn : Bool) : PortCode := BitVec.ofBool rst ++ BitVec.ofBool tuEn

/-- The word of an instruction, from the opcode maps of R66 and R67. -/
def encode : Instr → RawWord
  | .rdLevels data => .bus (busWordOf false 0 data)
  | .rdFreq data => .bus (busWordOf false 1 data)
  | .rdFreqlv data => .bus (busWordOf false 2 data)
  | .rdTick data => .bus (busWordOf false 3 data)
  | .wrLevels data => .bus (busWordOf true 0 data)
  | .wrFreq data => .bus (busWordOf true 1 data)
  | .wrFreqlv data => .bus (busWordOf true 2 data)
  | .wrTick data => .bus (busWordOf true 3 data)
  | .idle => .port (portCodeOf false false)
  | .tuStep => .port (portCodeOf false true)
  | .reset t => .port (portCodeOf true t)

/-- A row of the opcode map: a word `w` is of the row where `w &&& mask = value` (R66, R67). -/
structure OpcodeRow where
  mnemonic : String
  format : Format
  value : Nat
  mask : Nat
deriving DecidableEq, Repr

/-- The opcode maps of R66 and R67, row for row. -/
def opcodeTable : List OpcodeRow :=
  [⟨"RD_LEVELS", .bus, 0x000000000, 0x700000000⟩, ⟨"RD_FREQ", .bus, 0x100000000, 0x700000000⟩,
   ⟨"RD_FREQLV", .bus, 0x200000000, 0x700000000⟩, ⟨"RD_TICK", .bus, 0x300000000, 0x700000000⟩,
   ⟨"WR_LEVELS", .bus, 0x400000000, 0x700000000⟩, ⟨"WR_FREQ", .bus, 0x500000000, 0x700000000⟩,
   ⟨"WR_FREQLV", .bus, 0x600000000, 0x700000000⟩, ⟨"WR_TICK", .bus, 0x700000000, 0x700000000⟩,
   ⟨"IDLE", .port, 0b00, 0b11⟩, ⟨"TU_STEP", .port, 0b01, 0b11⟩, ⟨"RESET", .port, 0b10, 0b10⟩]

/-- The mnemonic of an instruction's row (R66, R67). -/
def Instr.mnemonic : Instr → String
  | .rdLevels _ => "RD_LEVELS"
  | .rdFreq _ => "RD_FREQ"
  | .rdFreqlv _ => "RD_FREQLV"
  | .rdTick _ => "RD_TICK"
  | .wrLevels _ => "WR_LEVELS"
  | .wrFreq _ => "WR_FREQ"
  | .wrFreqlv _ => "WR_FREQLV"
  | .wrTick _ => "WR_TICK"
  | .idle => "IDLE"
  | .tuStep => "TU_STEP"
  | .reset _ => "RESET"

/-- The format of a word. -/
def RawWord.format : RawWord → Format
  | .bus _ => .bus
  | .port _ => .port

/-- A word as a number. -/
def RawWord.toNat : RawWord → Nat
  | .bus txn => txn.toNat
  | .port ev => ev.toNat

/-- The word is of the row. -/
def OpcodeRow.matchesWord (row : OpcodeRow) (w : RawWord) : Bool :=
  decide (row.format = w.format) && decide (w.toNat &&& row.mask = row.value)

/-- The word address of a register (R41). -/
def Reg.addr : Reg → BusAddr
  | .levels => 0
  | .freq => 1
  | .freqlv => 2
  | .tick => 3

/-- The port code the signals of a cycle carry (R60, R62): every cycle carries exactly one. -/
def Pins.portCode (p : Pins) : PortCode := portCodeOf p.rst p.tuEn

/-- The bus word the signals of a cycle carry: none where `bus_valid` = 0 (R60, R61). -/
def Pins.busWord (p : Pins) : Option BusWord :=
  if p.busValid then some (busWordOf p.busWe p.busAddr p.busWdata) else none

/-- The port event of a cycle. -/
def Pins.event (p : Pins) : Instr := decodePort p.portCode

/-- The host command of a cycle, or none. -/
def Pins.command (p : Pins) : Option Instr := p.busWord.map decodeBus

/-- The signals that carry a port code and a bus word or none; with no bus word the other `bus_*` signals are 0, which
has no effect (R68). -/
def Pins.ofWords (ev : PortCode) (txn : Option BusWord) : Pins where
  rst := ev.getLsbD 1
  tuEn := ev.getLsbD 0
  busValid := txn.isSome
  busWe := (txn.getD 0).getLsbD 34
  busAddr := (txn.getD 0).extractLsb' 32 2
  busWdata := (txn.getD 0).extractLsb' 0 32

/-- The signals of a cycle that carries ONE operation: a bus command in an IDLE cycle (R70: "A line with a command but
no event writes the command alone"), or a port event with no bus word. DESIGN CHOICE, log entry 8. -/
def Pins.ofRaw : RawWord → Pins
  | .bus txn => .ofWords 0 (some txn)
  | .port ev => .ofWords ev none

end Sys2Proof
end

