-- ==== Sys2Proof/Machine/Divider.lean ====
section
/-! DEFINITION. The frame-timing divider (spec/40_frame_timing.md): pure functions on unbounded naturals (R11), stored
in registers they always fit (R7). -/

namespace Sys2Proof.Machine

/-- `tick_duration(f)` = K / (3·f·LEVELS), truncating (R81). Its domain is [10, 160]; outside it the spec states no
result, which is a free value (log entry 5). -/
def tickDuration (f : Freq) : Tick :=
  if Config.fMin ≤ f.toNat ∧ f.toNat ≤ Config.fMax then
    BitVec.ofNat 12 (Config.k / (Config.nch * f.toNat * Config.levels))
  else Config.tickOffRange f

/-- `clamp(w·10 + 10, 10, 160)`, the number both conversions of a level compute (R84, R85). -/
def clampedFrequency (w : Nat) : Nat := clamp (w * Config.fStep + Config.fOff) Config.fMin Config.fMax

/-- `level_to_frequency(l)` (R84). -/
def levelToFrequency (l : Level) : Freq := BitVec.ofNat 8 (clampedFrequency l.toNat)

/-- `level_to_frequency_sat(w)`: the same on a 32-bit operand, so that 10·w + 10 cannot wrap (R85). -/
def levelToFrequencySat (w : BusData) : Freq := BitVec.ofNat 8 (clampedFrequency w.toNat)

end Sys2Proof.Machine
end

