-- ==== Sys2Proof/Machine/State.lean ====
section
/-! DEFINITION. The state of the block: the elements of R23 (spec/10_state.md), which are the complete state, and four
fields of the model's own that say what the block's signals carry (log entries 1 to 4). -/

namespace Sys2Proof.Machine

/-- The reasons a step can stop with a fault: none. "A model's step function has no fault outcome for this block"
(R150 of spec/60_exceptions.md), so nobody raises one. -/
inductive Fault where
deriving DecidableEq, Repr

/-- The reasons a step can be refused. -/
inductive Refusal where
  /-- Raised by an arm of `exec` whose instruction has no meaning yet; safe. -/
  | notModelled (mnemonic : String)
  /-- Raised by `cycle` and `observe` for a cycle without `rst` before the first RESET: a model "refuses any run that does
  not begin with one" (R38, decision D18, item I4); safe. -/
  | beforeFirstReset
deriving DecidableEq, Repr

/-- The state. -/
structure State where
  /-- `LV[0..2]`, the target levels (R24). -/
  lv : Levels
  /-- `FREQ`, the target frequency (R25). -/
  freq : Freq
  /-- `SNAP_LV[0..2]`, the levels of the current frame (R27). -/
  snapLv : Levels
  /-- `SNAP_TICK`, the tick duration of the current frame (R28). -/
  snapTick : Tick
  /-- `CH`, the channel whose slot is in progress (R29). -/
  ch : BitVec 2
  /-- `POS`, the tick in progress within the slot (R30). -/
  pos : BitVec 4
  /-- `SUB`, the time unit in progress within the tick (R31). -/
  sub : BitVec 12
  /-- The model's own: the value `bus_rdata` had in the latest cycle (R36, R100). Log entry 3. -/
  rdata : BusData
  /-- The model's own: whether a RESET cycle has happened (R38). Log entry 4. -/
  resetSeen : Bool
  /-- The model's own: the input signals of the coming cycles, the next cycle's first (R8, R36). Log entry 1. -/
  inputs : List Pins
  /-- The model's own: the counter that numbers the free input signals. Log entry 2. -/
  cycle : Nat
deriving DecidableEq, Repr

/-- The machine right after a RESET: the elements as R34 and R170 give them; the model's own fields as log entries 1 to
4 say. SNAP_TICK is 208, the tick duration of the default frequency. -/
def State.reset : State where
  lv := ⟨Config.levelDefault, Config.levelDefault, Config.levelDefault⟩
  freq := Config.freqDefault
  snapLv := ⟨Config.levelDefault, Config.levelDefault, Config.levelDefault⟩
  snapTick := tickDuration Config.freqDefault
  ch := 0
  pos := 0
  sub := 0
  rdata := 0
  resetSeen := true
  inputs := []
  cycle := 0

/-- The machine before its first RESET: no element is specified (R38), so each is a free value. Log entry 4. -/
def State.powerUp : State where
  lv := Config.powerUpLv
  freq := Config.powerUpFreq
  snapLv := Config.powerUpSnapLv
  snapTick := Config.powerUpSnapTick
  ch := Config.powerUpCh
  pos := Config.powerUpPos
  sub := Config.powerUpSub
  rdata := Config.powerUpRdata
  resetSeen := false
  inputs := []
  cycle := 0

end Sys2Proof.Machine
end

