-- ==== Sys2Proof/Machine/Operands.lean ====
section
/-! DEFINITION. The operand forms (spec/30_encoding.md R63, R64): how a write decodes its DATA field, and the layout of
the LEVELS register. -/

namespace Sys2Proof

/-- Level `c` of a triple. -/
def Levels.get (l : Levels) (c : Channel) : Level :=
  match c with
  | 0 => l.ch0
  | 1 => l.ch1
  | 2 => l.ch2

namespace Machine

/-- The operand of WR_LEVELS: the field of channel c is DATA[4c+3:4c]; DATA[31:12] is ignored (R63, R64). -/
def levelsOfData (data : BusData) : Levels where
  ch0 := data.extractLsb' 0 4
  ch1 := data.extractLsb' 4 4
  ch2 := data.extractLsb' 8 4

/-- What a read of LEVELS returns: `{20'b0, LV[2], LV[1], LV[0]}` (R64, R101). -/
def levelsWord (l : Levels) : BusData := 0#20 ++ (l.ch2 ++ (l.ch1 ++ l.ch0))

/-- The operand of WR_FREQLV: the whole of DATA as one unsigned level, converted with saturation (R63, R85). -/
def freqOfData (data : BusData) : Freq := levelToFrequencySat data

end Machine

end Sys2Proof
end

