-- ==== Sys2Proof/Machine/Flags.lean ====
section
/-! DEFINITION. The block has no flags (R22 of spec/10_state.md): no operation writes a status bit. What stands here is
the nearest it has, the carries between the engine's counters (R121 of spec/42_modulator.md) and the level compare
(R30, R126), each a function of the state. -/

namespace Sys2Proof.Machine

/-- SUB carries into POS: the tick ends, that is, not SUB + 1 < SNAP_TICK (R122). -/
def tickEnds (s : State) : Bool := !decide (s.sub.toNat + 1 < s.snapTick.toNat)

/-- POS carries into CH: the slot ends, that is, not POS < LEVELS - 1 (R122). -/
def slotEnds (s : State) : Bool := !decide (s.pos.toNat < Config.levels - 1)

/-- CH carries into a new frame: not CH < 2 (R122). -/
def channelsEnd (s : State) : Bool := !decide (s.ch.toNat < Config.nch - 1)

/-- The level compare: POS < SNAP_LV[c] (R126). -/
def levelCompare (s : State) (c : Channel) : Bool := decide (s.pos.toNat < (s.snapLv.get c).toNat)

end Sys2Proof.Machine
end

