-- ==== Sys2Proof/Machine/Ops.lean ====
section
/-! DEFINITION. The operations the meanings share: the host registers by name (R41, R100 of spec/), the snapshot (R123),
the reset of all elements (R170), the output lines (R126) and the input signals. There is no trap entry and no trap
return to write: the block raises no exception (R150, R153, R154). -/

namespace Sys2Proof.Machine

/-- Runs `k` on the result of `o`, unless `o` stopped. -/
def andThen {α β : Type} (o : Host.Outcome α Fault Refusal) (k : α → Host.Outcome β Fault Refusal) :
    Host.Outcome β Fault Refusal :=
  match o with
  | .next a => k a
  | .fault f => .fault f
  | .refused r => .refused r

/-! One update of the state for each kind of write. -/

/-- `rdata <- v`. -/
def State.setRdata (s : State) (v : BusData) : State := { s with rdata := v }
/-- LV[0], LV[1] and LV[2] at one edge (R45, R105). -/
def State.setLv (s : State) (l : Levels) : State := { s with lv := l }
/-- `FREQ <- f`. -/
def State.setFreq (s : State) (f : Freq) : State := { s with freq := f }
/-- The engine's place in the frame (R121). -/
def State.setPlace (s : State) (ch : BitVec 2) (pos : BitVec 4) (sub : BitVec 12) : State :=
  { s with ch := ch, pos := pos, sub := sub }
/-- SNAP_LV and SNAP_TICK (R27, R28). -/
def State.setSnapshot (s : State) (l : Levels) (t : Tick) : State := { s with snapLv := l, snapTick := t }

/-- `MemRead(addr, 4)`: what a read of a register returns (R12, R41). -/
def readRegister (s : State) : Reg → BusData
  | .levels => levelsWord s.lv
  | .freq => s.freq.setWidth 32
  | .freqlv => 0
  | .tick => (tickDuration s.freq).setWidth 32

/-- `MemWrite(addr, 4, v)`: what a write of a register does (R12, R41); a write to FREQ or TICK does nothing. -/
def writeRegister (s : State) (r : Reg) (data : BusData) : State :=
  match r with
  | .levels => s.setLv (levelsOfData data)
  | .freq => s
  | .freqlv => s.setFreq (freqOfData data)
  | .tick => s

/-- The effect of a read command: its value on `bus_rdata`, nothing else (R100). -/
def hostRead (s : State) (r : Reg) : State := s.setRdata (readRegister s r)

/-- The effect of a write command: the register's write, and 0 on `bus_rdata` (R100). -/
def hostWrite (s : State) (r : Reg) (data : BusData) : State := (writeRegister s r data).setRdata 0

/-- The frame snapshot: SNAP_LV from LV and SNAP_TICK from FREQ, all read from one state (R123, R55). -/
def snapshot (s : State) : State := s.setSnapshot s.lv (tickDuration s.freq)

/-- Every element of state to its reset value (R170). The model's own fields stay, but that a RESET has happened. -/
def resetElements (s : State) : State :=
  { State.reset with rdata := s.rdata, inputs := s.inputs, cycle := s.cycle }

/-- OUT[c], a function of the state alone (R126). -/
def out (s : State) (c : Channel) : Bool := decide (s.ch.toNat = c.val) && levelCompare s c

/-- The input signals of the coming cycle: the next program line's, or any (log entry 2). -/
def State.nextPins (s : State) : Pins :=
  match s.inputs with
  | p :: _ => p
  | [] => Config.freePins s.cycle

/-- The state whose coming cycle's signals have been taken. -/
def State.takeInput (s : State) : State := { s with inputs := s.inputs.tail, cycle := s.cycle + 1 }

end Sys2Proof.Machine
end

