-- ==== Sys2Proof/Machine/Engine.lean ====
section
/-! DEFINITION. The modulation engine's two events (spec/42_modulator.md R122 to R125). -/

namespace Sys2Proof.Machine

/-- `engine_step(S)` of R122: one time unit. SUB counts, and carries into POS, CH and a new frame with its snapshot. -/
def engineStep (s : State) : State :=
  if tickEnds s then
    if slotEnds s then
      if channelsEnd s then (snapshot s).setPlace 0 0 0
      else s.setPlace (s.ch + 1) 0 0
    else s.setPlace s.ch (s.pos + 1) 0
  else s.setPlace s.ch s.pos (s.sub + 1)

/-- TU_STEP (R122). -/
def execTuStep (s : State) : Host.Outcome State Fault Refusal := .next (engineStep s)

/-- IDLE: the engine keeps its state (R124). -/
def execIdle (s : State) : Host.Outcome State Fault Refusal := .next s

end Sys2Proof.Machine
end

