-- ==== Sys2Proof/Machine/HostRead.lean ====
section
/-! DEFINITION. The four read commands (spec/41_register_access.md R101 to R104), each ignoring its DATA field (R63). -/

namespace Sys2Proof.Machine

/-- RD_LEVELS (R101). -/
def execRdLevels (_data : BusData) (s : State) : Host.Outcome State Fault Refusal := .next (hostRead s .levels)

/-- RD_FREQ (R102). -/
def execRdFreq (_data : BusData) (s : State) : Host.Outcome State Fault Refusal := .next (hostRead s .freq)

/-- RD_FREQLV: a read of the write-only address returns 0 (R103). -/
def execRdFreqlv (_data : BusData) (s : State) : Host.Outcome State Fault Refusal := .next (hostRead s .freqlv)

/-- RD_TICK (R104). -/
def execRdTick (_data : BusData) (s : State) : Host.Outcome State Fault Refusal := .next (hostRead s .tick)

end Sys2Proof.Machine
end

