-- ==== Sys2Proof/Machine/HostWrite.lean ====
section
/-! DEFINITION. The four write commands (spec/41_register_access.md R105 to R108). -/

namespace Sys2Proof.Machine

/-- WR_LEVELS (R105). -/
def execWrLevels (data : BusData) (s : State) : Host.Outcome State Fault Refusal := .next (hostWrite s .levels data)

/-- WR_FREQ: silently dropped (R106). -/
def execWrFreq (data : BusData) (s : State) : Host.Outcome State Fault Refusal := .next (hostWrite s .freq data)

/-- WR_FREQLV (R107). -/
def execWrFreqlv (data : BusData) (s : State) : Host.Outcome State Fault Refusal := .next (hostWrite s .freqlv data)

/-- WR_TICK: silently dropped (R108). -/
def execWrTick (data : BusData) (s : State) : Host.Outcome State Fault Refusal := .next (hostWrite s .tick data)

end Sys2Proof.Machine
end

