-- ==== Sys2Proof/Machine/Reset.lean ====
section
/-! DEFINITION. RESET (spec/70_reset_and_hazards.md R170). -/

namespace Sys2Proof.Machine

/-- RESET, with `tu_en` of either value ignored: no time unit is counted (R170). -/
def execReset (_t : Bool) (s : State) : Host.Outcome State Fault Refusal := .next (resetElements s)

end Sys2Proof.Machine
end

