-- ==== Sys2Proof/Machine/Dispatch.lean ====
section
/-! DEFINITION. The meaning of each operation on its own: a bus command as in an IDLE cycle, a port event as in a cycle
with no bus word. Machine/Cycle.lean composes the two of one cycle (R48). -/

namespace Sys2Proof.Machine

/-- One arm for each row of spec/opcode_table.json. -/
def exec (i : Instr) (s : State) : Host.Outcome State Fault Refusal :=
  match i with
  | .rdLevels data => Sys2Proof.Machine.execRdLevels data s
  | .rdFreq data => Sys2Proof.Machine.execRdFreq data s
  | .rdFreqlv data => Sys2Proof.Machine.execRdFreqlv data s
  | .rdTick data => Sys2Proof.Machine.execRdTick data s
  | .wrLevels data => Sys2Proof.Machine.execWrLevels data s
  | .wrFreq data => Sys2Proof.Machine.execWrFreq data s
  | .wrFreqlv data => Sys2Proof.Machine.execWrFreqlv data s
  | .wrTick data => Sys2Proof.Machine.execWrTick data s
  | .idle => Sys2Proof.Machine.execIdle s
  | .tuStep => Sys2Proof.Machine.execTuStep s
  | .reset t => Sys2Proof.Machine.execReset t s

end Sys2Proof.Machine
end

