-- ==== Sys2Proof/Machine/Cycle.lean ====
section
/-! DEFINITION. One clock cycle: how the port event and the host command of a cycle compose (R48 of spec/20_memory.md),
and the observations of a cycle (R9 of spec/00_scope.md). -/

namespace Sys2Proof.Machine

/-- `read_data(S, txn)`: what the cycle's command puts on `bus_rdata`, from the pre-edge state; 0 with no transaction
(R100). -/
def readData (s : State) (command : Option Instr) : Host.Outcome BusData Fault Refusal :=
  match command with
  | none => .next 0
  | some i => andThen (exec i s) fun t => .next t.rdata

/-- The host command's part of a cycle, after the port event: nothing where there is none, and dropped in a reset cycle
(R48, R171). -/
def runCommand (p : Pins) (s : State) : Host.Outcome State Fault Refusal :=
  if p.rst then .next s
  else
    match p.command with
    | none => .next s
    | some i => exec i s

/-- The cycle is before the run's first RESET, and is not that RESET: no run holds it (R38). -/
def precedesFirstReset (p : Pins) (s : State) : Bool := !p.rst && !s.resetSeen

/-- `cycle(S, rst, tu_en, txn)` of R48: the read data from the pre-edge state, then the port event, then the host
command. Before the first RESET only a RESET cycle is accepted (R38). -/
def cycle (p : Pins) (s : State) : Host.Outcome State Fault Refusal :=
  if precedesFirstReset p s then .refused .beforeFirstReset
  else
    andThen (readData s p.command) fun rd =>
      andThen (exec p.event s) fun s1 => andThen (runCommand p s1) fun s2 => .next (s2.setRdata rd)

/-- The two observations of a cycle (R9): the output lines of the state held during it, and the read data. -/
structure Observation where
  out0 : Bool
  out1 : Bool
  out2 : Bool
  rdata : BusData
deriving DecidableEq, Repr

/-- What is observed in a cycle with the given signals, from the state before its edge (R9, R100, R126); before the
first RESET nothing has a meaning (R38). The first RESET cycle is the run's first, and is observed: its lines and its
read data are those of the unspecified state before it (R172), free values. Log entry 4. -/
def observe (p : Pins) (s : State) : Host.Outcome Observation Fault Refusal :=
  if precedesFirstReset p s then .refused .beforeFirstReset
  else andThen (readData s p.command) fun rd => .next ⟨out s 0, out s 1, out s 2, rd⟩

/-- Physical time, in seconds, of a number of time units (R181). No rule of the block reads it. -/
def physicalTime (timeUnits : Nat) : Rat := timeUnits * Config.tuPeriod

end Sys2Proof.Machine
end

