-- ==== Sys2Proof/Machine/Step.lean ====
section
/-! DEFINITION. One step of the machine: one clock cycle on the signals its inputs carry (R8 of spec/00_scope.md). The
block fetches nothing (R53); its program is the list of the coming cycles' signals. -/

namespace Sys2Proof.Machine

/-- One clock cycle. -/
def step (s : State) : Host.Outcome State Fault Refusal := cycle s.nextPins s.takeInput

/-- The state whose coming cycle carries exactly one operation, given as a number of the table's row: it takes the place
of the coming program line. DESIGN CHOICE, log entries 1 and 8. -/
def State.withFetchWord (s : State) (nbits w : Nat) : State :=
  match rawWord (tableFormat nbits) w with
  | .ok r => { s with inputs := Pins.ofRaw r :: s.inputs.tail }
  | .error _ => s

end Sys2Proof.Machine
end

