-- ==== Sys2Proof/Machine/Assembler.lean ====
section
/-! DEFINITION. The assembler of spec/30_encoding.md (R70, R71): from the text of a program to the signals of its
cycles, by way of `Asm.Line`. The spec fixes the syntax of a line; how characters group into tokens is a DESIGN CHOICE,
log entry 11. -/

namespace Sys2Proof.Asm

/-! ### From a line to its cycles -/

/-- The instruction of an event (R67). The assembler writes RESET with `tu_en` = 0, as in the programs P3 and P5. -/
def Event.instr : Event → Instr
  | .idle => .idle
  | .tu => .tuStep
  | .reset => .reset false

/-- The instruction of a command; a read is written with DATA 0, which no read looks at (R63). -/
def Command.instr : Command → Instr
  | .rd .levels => .rdLevels 0
  | .rd .freq => .rdFreq 0
  | .rd .freqlv => .rdFreqlv 0
  | .rd .tick => .rdTick 0
  | .wr .levels imm => .wrLevels (BitVec.ofNat 32 imm)
  | .wr .freq imm => .wrFreq (BitVec.ofNat 32 imm)
  | .wr .freqlv imm => .wrFreqlv (BitVec.ofNat 32 imm)
  | .wr .tick imm => .wrTick (BitVec.ofNat 32 imm)

/-- The port code of a line's event; an absent event means IDLE (R70). -/
def eventCode (e : Option Event) : PortCode :=
  match encode ((e.getD .idle).instr) with
  | .port ev => ev
  | .bus _ => 0

/-- The bus word of a line's command, or none (R70). -/
def commandWord (c : Option Command) : Option BusWord :=
  match c.map fun c => encode c.instr with
  | some (.bus txn) => some txn
  | _ => none

/-- "The encoding of a line is the pair (PORT code, BUS word or none)" (R70). -/
def cyclePins (e : Option Event) (c : Option Command) : Pins := Pins.ofWords (eventCode e) (commandWord c)

/-- The cycles a line stands for (R70, R71). -/
def Line.expand : Line → List Pins
  | .cycle e c => [cyclePins e c]
  | .tuTimes n => List.replicate n (cyclePins (some .tu) none)
  | .idleTimes n => List.replicate n (cyclePins (some .idle) none)
  | .nop => [cyclePins (some .idle) none]
  | .setlv l0 l1 l2 => [cyclePins none (some (.wr .levels (l2 * 256 + l1 * 16 + l0)))]
  | .setf level => [cyclePins none (some (.wr .freqlv level))]

/-- A line's cycles, none where the assembler refuses the line (R70, R71). -/
def Line.assemble (l : Line) : Option (List Pins) := if l.wf then some l.expand else none

/-- A program's cycles: those of its lines in order, none where a line is refused (R70). -/
def assemble : List Line → Option (List Pins)
  | [] => some []
  | l :: ls =>
    match l.assemble, assemble ls with
    | some ps, some qs => some (ps ++ qs)
    | _, _ => none

/-! ### From text to lines -/

/-- A token: a word, or one of the signs `+` and `,`. -/
abbrev Token := List Char

/-- The token being read, if there is one, before the tokens after it. -/
def flush (acc : List Char) (rest : List Token) : List Token :=
  match acc with
  | [] => rest
  | _ :: _ => acc.reverse :: rest

/-- The tokens of a line: words are separated by white space, `+` and `,` stand alone, and `;` starts a comment. -/
def tokens : List Char → List Char → List Token
  | [], acc => flush acc []
  | c :: cs, acc =>
    if c = ';' then flush acc []
    else if c = ' ' ∨ c = '\t' ∨ c = '\r' then flush acc (tokens cs [])
    else if c = '+' ∨ c = ',' then flush acc ([c] :: tokens cs [])
    else tokens cs (c :: acc)

/-- The value of a digit in a base of 10 or 16. -/
def digitValue (base : Nat) (c : Char) : Option Nat :=
  let v :=
    if '0'.toNat ≤ c.toNat ∧ c.toNat ≤ '9'.toNat then c.toNat - '0'.toNat
    else if 'a'.toNat ≤ c.toNat ∧ c.toNat ≤ 'f'.toNat then c.toNat - 'a'.toNat + 10
    else if 'A'.toNat ≤ c.toNat ∧ c.toNat ≤ 'F'.toNat then c.toNat - 'A'.toNat + 10
    else 16
  if v < base then some v else none

/-- The number that digits write after the number `acc` read so far. -/
def digits (base : Nat) : List Char → Nat → Option Nat
  | [], acc => some acc
  | c :: cs, acc =>
    match digitValue base c with
    | some v => digits base cs (acc * base + v)
    | none => none

/-- An unsigned literal in decimal or `0x` hex (R70). A sign is no digit, so a negative literal is refused. DESIGN CHOICE,
log entry 11: leading zeros change nothing, hex digits are of either case, and the `x` of `0x` is lower case. -/
def number : Token → Option Nat
  | [] => none
  | '0' :: 'x' :: c :: cs => digits 16 (c :: cs) 0
  | c :: cs => digits 10 (c :: cs) 0

/-- `<reg>`: a name, or a number 0 to 3 in the order of the register map (R70, R41). R70 does not say how that number is
written. DESIGN CHOICE, log entry 11: like an immediate, so in decimal or `0x` hex and with any leading zeros. -/
def register (t : Token) : Option Reg :=
  if t = "LEVELS".toList then some .levels
  else if t = "FREQ".toList then some .freq
  else if t = "FREQLV".toList then some .freqlv
  else if t = "TICK".toList then some .tick
  else
    match number t with
    | some 0 => some .levels
    | some 1 => some .freq
    | some 2 => some .freqlv
    | some 3 => some .tick
    | _ => none

/-- `<event>` (R70). -/
def event (t : Token) : Option Event :=
  if t = "IDLE".toList then some .idle
  else if t = "TU".toList then some .tu
  else if t = "RESET".toList then some .reset
  else none

/-- `<command>`: `RD <reg>` or `WR <reg>, <imm>` (R70). -/
def command : List Token → Option Command
  | [op, r] => if op = "RD".toList then (register r).map .rd else none
  | [op, r, comma, imm] =>
    if op = "WR".toList ∧ comma = [','] then
      match register r, number imm with
      | some r, some n => some (.wr r n)
      | _, _ => none
    else none
  | _ => none

/-- A line that begins with an event (R70), or a repeated event (R71). -/
def afterEvent (e : Event) : List Token → Option Line
  | [] => some (.cycle (some e) none)
  | t :: ts =>
    if t = ['+'] then (command ts).map fun c => .cycle (some e) (some c)
    else
      match e, number t, ts with
      | .tu, some n, [] => some (.tuTimes n)
      | .idle, some n, [] => some (.idleTimes n)
      | _, _, _ => none

/-- The pseudo-instructions that begin with a word of their own (R71). -/
def pseudo : List Token → Option Line
  | [op] => if op = "NOP".toList then some .nop else none
  | [op, level] => if op = "SETF".toList then (number level).map .setf else none
  | [op, l0, c0, l1, c1, l2] =>
    if op = "SETLV".toList ∧ c0 = [','] ∧ c1 = [','] then
      match number l0, number l1, number l2 with
      | some l0, some l1, some l2 => some (.setlv l0 l1 l2)
      | _, _, _ => none
    else none
  | _ => none

/-- A line: `[<event>] [+ <command>]`, a command alone, or a pseudo-instruction (R70, R71). -/
def line : List Token → Option Line
  | [] => some (.cycle none none)
  | t :: ts =>
    match event t with
    | some e => afterEvent e ts
    | none =>
      if t = ['+'] then (command ts).map fun c => .cycle none (some c)
      else
        match command (t :: ts) with
        | some c => some (.cycle none (some c))
        | none => pseudo (t :: ts)

/-- The line that characters write, none where they write no line of the syntax. -/
def parseLine (cs : List Char) : Option Line := line (tokens cs [])

/-- The lines of a text, the one being read before those after it; a newline after the last line adds none. -/
def splitLines : List Char → List Char → List (List Char)
  | [], [] => []
  | [], acc => [acc.reverse]
  | c :: cs, acc => if c = '\n' then acc.reverse :: splitLines cs [] else splitLines cs (c :: acc)

/-- The lines of a program's text, one cycle or pseudo-instruction a line (R70). -/
def parseLines : List (List Char) → Option (List Line)
  | [] => some []
  | cs :: rest =>
    match parseLine cs, parseLines rest with
    | some l, some ls => some (l :: ls)
    | _, _ => none

/-- The cycles of a program's text, none where the assembler refuses it. -/
def assembleText (text : String) : Option (List Pins) :=
  match parseLines (splitLines text.toList []) with
  | some ls => assemble ls
  | none => none

end Sys2Proof.Asm

namespace Sys2Proof.Machine

/-- A state whose coming cycles carry a program's signals: how a program comes to run (log entry 1). -/
def State.withProgram (s : State) (program : List Pins) : State := { s with inputs := program }

end Sys2Proof.Machine
end

