-- ==== Sys2Proof/Safety.lean ====
section
/-! DEFINITION. What counts as a legal state (R33 of spec/10_state.md) and the terms in which claims about runs are
stated. -/

namespace Sys2Proof

/-- A cycle that counts a time unit: `rst` = 0 and `tu_en` = 1 (R8). -/
def Pins.ticks (p : Pins) : Bool := !p.rst && p.tuEn

/-- A cycle that carries a write of LEVELS (R105). -/
def Pins.WritesLevels (p : Pins) : Prop := ∃ data, p.command = some (.wrLevels data)

/-- A cycle that carries a write of FREQLV (R107). -/
def Pins.WritesFreqlv (p : Pins) : Prop := ∃ data, p.command = some (.wrFreqlv data)

/-- A cycle that counts one time unit and carries no bus word. -/
def Pins.timeUnit : Pins := Pins.ofRaw (encode .tuStep)

end Sys2Proof

namespace Sys2Proof.Machine

/-- A frequency on the grid: one of 10, 20, ..., 160 (R80). -/
abbrev OnGrid (f : Freq) : Prop := ∃ l, l < Config.levels ∧ f.toNat = Config.fStep * l + Config.fOff

/-- A tick duration the block can compute: that of a grid frequency (R33). -/
abbrev IsGridTick (t : Tick) : Prop :=
  ∃ l, l < Config.levels ∧ t = tickDuration (BitVec.ofNat 8 (Config.fStep * l + Config.fOff))

/-- The well-formedness predicate R33 allows: what holds of every state reachable from RESET. -/
structure State.WellFormed (s : State) : Prop where
  /-- `CH` is 0, 1 or 2. -/
  channel : s.ch.toNat < Config.nch
  /-- `SUB < SNAP_TICK`. -/
  subBelowTick : s.sub.toNat < s.snapTick.toNat
  /-- `SNAP_TICK` is the tick duration of a grid frequency. -/
  gridTick : IsGridTick s.snapTick
  /-- `FREQ` is on the grid. -/
  gridFreq : OnGrid s.freq

/-- The invariant of every run, from power-up on: once a RESET has happened, the state is well formed. -/
def State.Inv (s : State) : Prop := s.resetSeen = true → s.WellFormed

/-- The first time unit of a frame (R121). -/
def State.AtFrameStart (s : State) : Prop := s.ch = 0 ∧ s.pos = 0 ∧ s.sub = 0

/-- The frame position k = 16·T·CH + T·POS + SUB, with T = SNAP_TICK (R175). -/
def State.framePosition (s : State) : Nat :=
  Config.levels * s.snapTick.toNat * s.ch.toNat + s.snapTick.toNat * s.pos.toNat + s.sub.toNat

/-- The length of the current frame in time units, 48·T (R129). -/
def State.frameLength (s : State) : Nat := Config.nch * Config.levels * s.snapTick.toNat

/-- How many time units a list of cycles counts. -/
def timeUnits (ps : List Pins) : Nat := ps.countP Pins.ticks

/-- None of the cycles is a reset cycle. -/
def NoReset (ps : List Pins) : Prop := ∀ p ∈ ps, p.rst = false

/-- The machine's run over exactly these cycles. -/
def runOn (ps : List Pins) (s : State) : Host.Outcome State Fault Refusal :=
  Host.Core.run core ps.length (s.withProgram ps)

end Sys2Proof.Machine
end

