-- ==== Sys2Proof/Certificates/Slice0/Obligations.lean ====
section
/-! DEFINITION. The statements for the provers. Each says which rule of spec/ it formalises, or on what it rests. -/

open Sys2Proof Sys2Proof.Machine

/-! ### Reset and the legal states -/

/-- R34: the reset value of every element of state. -/
def Obligations.ResetHoldsTheSpecValues : Prop :=
  State.reset.lv = ⟨15, 15, 15⟩ ∧ State.reset.freq = 100 ∧ State.reset.snapLv = ⟨15, 15, 15⟩ ∧
    State.reset.snapTick = 208 ∧ State.reset.ch = 0 ∧ State.reset.pos = 0 ∧ State.reset.sub = 0

/-- The invariant holds at reset (R33: "These hold at reset"), and at power-up, where no RESET has happened yet. -/
def Obligations.InvariantHoldsInitially : Prop := State.reset.WellFormed ∧ State.reset.Inv ∧ State.powerUp.Inv

/-- R33, R34: every step keeps the legal states. It holds from every state with the invariant, whatever the input
signals are, the first RESET included. -/
def Obligations.EveryStepKeepsTheInvariant : Prop :=
  ∀ s s' : State, s.Inv → step s = .next s' → s'.Inv

/-- R33: every state reachable from RESET satisfies each of its five points, and the bounds they imply (R7). -/
def Obligations.ReachableStatesAreLegal : Prop :=
  ∀ (ps : List Pins) (n : Nat) (s' : State), Host.Core.run core n (State.reset.withProgram ps) = .next s' →
    s'.ch ≠ 3 ∧ s'.sub < s'.snapTick ∧
      (∃ l : Level, s'.snapTick = tickDuration (levelToFrequency l)) ∧
      (∃ l : Level, s'.freq.toNat = 10 * l.toNat + 10) ∧ 10 ≤ s'.freq.toNat ∧ s'.freq.toNat ≤ 160 ∧
      130 ≤ s'.snapTick.toNat ∧ s'.snapTick.toNat ≤ 2083

/-- R170: RESET, for both values of `tu_en`. Its own effect from any state; in a cycle, whatever the cycle's command: the
write is dropped, a read returns the pre-edge value; and held for several cycles it leaves the same elements. Of the
model's own fields `resetSeen` becomes true (log entry 4), `rdata` records the cycle's read data (log entry 3). -/
def Obligations.ResetReturnsEveryElement : Prop :=
  (∀ t : Bool, decodePort (BitVec.ofBool true ++ BitVec.ofBool t) = .reset t) ∧
    (∀ (t : Bool) (s : State),
      exec (.reset t) s =
        .next { s with
          lv := ⟨15, 15, 15⟩, freq := 100, snapLv := ⟨15, 15, 15⟩, snapTick := 208, ch := 0, pos := 0, sub := 0,
          resetSeen := true }) ∧
    (∀ (ps : List Pins) (p : Pins) (s : State), (∀ q ∈ p :: ps, q.rst = true) →
      ∃ s', runOn (p :: ps) s = .next s' ∧
        s' = { State.reset with rdata := s'.rdata, cycle := s.cycle + (ps.length + 1) }) ∧
    (∀ (p : Pins) (rest : List Pins) (s : State) (r : Reg), s.inputs = p :: rest → p.rst = true → p.busAddr = r.addr →
      ∃ s', step s = .next s' ∧ s'.rdata = if p.busValid && !p.busWe then readRegister s r else 0)

/-- Rests on R38 and on log entry 4. Before the first RESET every cycle without `rst` is refused, whatever else it
carries, and its observations have no meaning; a cycle with `rst` starts the run in the reset state, and its
observations are the lines and the read data of the state before it, whatever that is. That `resetSeen` tells whether a
RESET has happened is the model's choice, DESIGN CHOICE, log entry 4. -/
def Obligations.RunsBeginWithReset : Prop :=
  ∀ s : State, s.resetSeen = false →
    (s.nextPins.rst = false → step s = .refused .beforeFirstReset) ∧
      (∀ p : Pins, p.rst = false → observe p s = .refused .beforeFirstReset) ∧
      (∀ (p : Pins) (r : Reg), p.rst = true → p.busAddr = r.addr →
        observe p s =
          .next ⟨out s 0, out s 1, out s 2, if p.busValid && !p.busWe then readRegister s r else 0⟩) ∧
      (s.nextPins.rst = true →
        ∃ s', step s = .next s' ∧ s' = { State.reset with rdata := s'.rdata, inputs := s.inputs.tail, cycle := s.cycle + 1 })

/-- R150, R180: once a RESET has happened every cycle completes, whatever the state and the input signals; and no cycle
ends in a fault, from any state at all. -/
def Obligations.EveryCycleCompletes : Prop :=
  (∀ s : State, s.resetSeen = true → ∃ s', step s = .next s' ∧ s'.resetSeen = true) ∧
    (∀ (s : State) (f : Fault), step s ≠ .fault f) ∧
    (∀ s : State, step s = .refused .beforeFirstReset ↔ s.resetSeen = false ∧ s.nextPins.rst = false)

/-! ### Encoding -/

/-- R66, R67: for every word of both formats exactly one row of the opcode map matches it, and it is the row of the
instruction the decoder reads. -/
def Obligations.ExactlyOneOpcodeRowMatches : Prop :=
  ∀ w : RawWord, ((opcodeTable.filter (·.matchesWord w)).map (·.mnemonic)) = [(decode w).mnemonic]

/-- Decoding and encoding agree in both directions, for every instruction and every word. That `encode (decode w) = w`,
so that decoding drops no bit, rests on the model's choice to keep the fields R63 and R67 make don't-care (DATA of a
read, of WR_FREQ and of WR_TICK, T of RESET) as operands: DESIGN CHOICE, log entry 12. -/
def Obligations.DecodeAndEncodeAgree : Prop :=
  (∀ i : Instr, decode (encode i) = i) ∧ (∀ w : RawWord, encode (decode w) = w) ∧
    (∀ (ev : PortCode) (txn : Option BusWord),
      (Pins.ofWords ev txn).portCode = ev ∧ (Pins.ofWords ev txn).busWord = txn)

/-- The words of the spec's vectors H1 to H15 and of its port codes decode to the operations they stand for. Which number
of bits is which format is the model's choice (log entry 8). -/
def Obligations.DocumentedWordsDecode : Prop :=
  decodeTableWord 40 0x000000000 = some (.rdLevels 0) ∧ decodeTableWord 40 0x100000000 = some (.rdFreq 0) ∧
    decodeTableWord 40 0x200000000 = some (.rdFreqlv 0) ∧ decodeTableWord 40 0x300000000 = some (.rdTick 0) ∧
    decodeTableWord 40 0x4000008F0 = some (.wrLevels 0x8F0) ∧ decodeTableWord 40 0x500000037 = some (.wrFreq 0x37) ∧
    decodeTableWord 40 0x6FFFFFFFF = some (.wrFreqlv 0xFFFFFFFF) ∧ decodeTableWord 40 0x700000005 = some (.wrTick 5) ∧
    decodeTableWord 40 0x4FFFFF123 = some (.wrLevels 0xFFFFF123) ∧ decodeTableWord 40 0x400000FFF = some (.wrLevels 0xFFF) ∧
    decodeTableWord 40 0x500000000 = some (.wrFreq 0) ∧ decodeTableWord 40 0x600000000 = some (.wrFreqlv 0) ∧
    decodeTableWord 40 0x600000003 = some (.wrFreqlv 3) ∧ decodeTableWord 40 0x60000000F = some (.wrFreqlv 15) ∧
    decodeTableWord 40 0x012345678 = some (.rdLevels 0x12345678) ∧ decodeTableWord 8 0b00 = some .idle ∧
    decodeTableWord 8 0b01 = some .tuStep ∧ decodeTableWord 8 0b10 = some (.reset false) ∧
    decodeTableWord 8 0b11 = some (.reset true) ∧ decodeTableWord 40 0x800000000 = none ∧ decodeTableWord 8 0b100 = none

/-- A step runs the decoded operation: a state whose coming cycle carries one table word answers what `exec` answers at
the state whose input has been taken. A port event shares its cycle with no transaction, so `bus_rdata` is 0 (R100).
That a table word stands for such a cycle is the model's choice (log entry 8). -/
def Obligations.StepRunsTheDecodedInstruction : Prop :=
  ∀ (nbits w : Nat) (i : Instr) (s : State), s.resetSeen = true → decodeTableWord nbits w = some i →
    ∃ t, exec i { s with inputs := s.inputs.tail, cycle := s.cycle + 1 } = .next t ∧
      step (s.withFetchWord nbits w) = .next (if nbits ≤ 8 then { t with rdata := 0 } else t)

/-- Rests on R71 and on log entry 11. Each pseudo-instruction is exactly its expansion, and SETLV of a level above 15 is
refused. That a count of 0 is refused, where R71 writes only "n ≥ 1", is the model's choice, DESIGN CHOICE, log entry
11. -/
def Obligations.PseudoInstructionsExpand : Prop :=
  (∀ n, 1 ≤ n → (Asm.Line.tuTimes n).assemble = some (List.replicate n (Asm.cyclePins (some .tu) none))) ∧
    (∀ n, 1 ≤ n → (Asm.Line.idleTimes n).assemble = some (List.replicate n (Asm.cyclePins (some .idle) none))) ∧
    Asm.Line.nop.assemble = (Asm.Line.cycle (some .idle) none).assemble ∧
    (∀ l0 l1 l2, l0 ≤ 15 → l1 ≤ 15 → l2 ≤ 15 →
      (Asm.Line.setlv l0 l1 l2).assemble =
        (Asm.Line.cycle none (some (.wr .levels (l2 * 256 + l1 * 16 + l0)))).assemble) ∧
    (∀ l0 l1 l2, ¬(l0 ≤ 15 ∧ l1 ≤ 15 ∧ l2 ≤ 15) → (Asm.Line.setlv l0 l1 l2).assemble = none) ∧
    (∀ level, (Asm.Line.setf level).assemble = (Asm.Line.cycle none (some (.wr .freqlv level))).assemble) ∧
    (Asm.Line.tuTimes 0).assemble = none ∧ (Asm.Line.idleTimes 0).assemble = none

/-- What the assembler writes for a line of R70 is read by the decoder as the line's event and command, with every
immediate of 32 bits; a wider immediate is refused. -/
def Obligations.AssembledLinesDecode : Prop :=
  ∀ (e : Option Asm.Event) (c : Option Asm.Command),
    ((Asm.Line.cycle e c).wf = true →
      ∃ p, (Asm.Line.cycle e c).assemble = some [p] ∧ p.event = (e.getD .idle).instr ∧
        p.command = c.map Asm.Command.instr) ∧
      ∀ (r : Reg) (imm : Nat), 0xFFFFFFFF < imm → (Asm.Line.cycle e (some (.wr r imm))).assemble = none

/-! ### The host commands

`rdata` is the model's record of `bus_rdata` (log entry 3): "`rdata <- v`" of a command's rule sets it to v. -/

/-- R101. -/
def Obligations.RdLevelsReadsTheTriple : Prop :=
  (∀ txn : BusWord, txn.extractLsb' 32 3 = 0b000 → decodeBus txn = .rdLevels (txn.extractLsb' 0 32)) ∧
    (∀ (data : BusData) (s : State),
      exec (.rdLevels data) s = .next { s with rdata := 0#20 ++ s.lv.ch2 ++ s.lv.ch1 ++ s.lv.ch0 }) ∧
    readRegister State.reset .levels = 0x00000FFF

/-- R102. -/
def Obligations.RdFreqReadsTheFrequency : Prop :=
  (∀ txn : BusWord, txn.extractLsb' 32 3 = 0b001 → decodeBus txn = .rdFreq (txn.extractLsb' 0 32)) ∧
    (∀ (data : BusData) (s : State), exec (.rdFreq data) s = .next { s with rdata := 0#24 ++ s.freq }) ∧
    (∀ (data : BusData) (s : State), s.WellFormed →
      ∃ t l, exec (.rdFreq data) s = .next t ∧ l ≤ 15 ∧ t.rdata.toNat = 10 * l + 10) ∧
    (∀ (data : BusData) (s : State),
      ∃ t, andThen (exec (.wrFreqlv 0) s) (exec (.rdFreq data)) = .next t ∧ t.rdata = 10) ∧
    (∀ (data : BusData) (s : State),
      ∃ t, andThen (exec (.wrFreq 37) s) (exec (.rdFreq data)) = .next t ∧ t.rdata = 0#24 ++ s.freq) ∧
    readRegister State.reset .freq = 0x00000064

/-- R103. -/
def Obligations.RdFreqlvReadsZero : Prop :=
  (∀ txn : BusWord, txn.extractLsb' 32 3 = 0b010 → decodeBus txn = .rdFreqlv (txn.extractLsb' 0 32)) ∧
    (∀ (data : BusData) (s : State), exec (.rdFreqlv data) s = .next { s with rdata := 0x00000000 }) ∧
    (∀ (data : BusData) (s : State),
      ∃ t, andThen (exec (.wrFreqlv 15) s) (exec (.rdFreqlv data)) = .next t ∧ t.rdata = 0 ∧ t.freq = 160)

/-- R104. The pre-edge tick, not SNAP_TICK; always in [130, 2083] in a legal state. -/
def Obligations.RdTickReadsTheDivider : Prop :=
  (∀ txn : BusWord, txn.extractLsb' 32 3 = 0b011 → decodeBus txn = .rdTick (txn.extractLsb' 0 32)) ∧
    (∀ (data : BusData) (s : State),
      exec (.rdTick data) s = .next { s with rdata := 0#20 ++ tickDuration s.freq }) ∧
    (∀ (data : BusData) (s : State), s.WellFormed →
      ∃ t, exec (.rdTick data) s = .next t ∧ t.rdata.toNat = 1000000 / (48 * s.freq.toNat) ∧
        130 ≤ t.rdata.toNat ∧ t.rdata.toNat ≤ 2083) ∧
    (∀ (data : BusData) (s : State),
      ∃ t, andThen (exec (.wrFreqlv 3) s) (exec (.rdTick data)) = .next t ∧ t.rdata = 0x00000208) ∧
    readRegister State.reset .tick = 0x000000D0

/-- R105. All three levels at one edge, nothing else of the block; the outputs stay. A cycle that also ends the frame
takes the old triple into the snapshot; one that does not leaves the snapshot. -/
def Obligations.WrLevelsSetsTheTriple : Prop :=
  (∀ txn : BusWord, txn.extractLsb' 32 3 = 0b100 → decodeBus txn = .wrLevels (txn.extractLsb' 0 32)) ∧
    (∀ (data : BusData) (s : State),
      exec (.wrLevels data) s =
        .next { s with
          lv := ⟨data.extractLsb' 0 4, data.extractLsb' 4 4, data.extractLsb' 8 4⟩, rdata := 0 }) ∧
    (∀ (data : BusData) (s t : State), exec (.wrLevels data) s = .next t → ∀ c, out t c = out s c) ∧
    (∀ (data : BusData) (p : Pins) (s : State), s.resetSeen = true → p.rst = false → p.tuEn = true →
      p.command = some (.wrLevels data) →
      ∃ t, cycle p s = .next t ∧
        t.lv = ⟨data.extractLsb' 0 4, data.extractLsb' 4 4, data.extractLsb' 8 4⟩ ∧
        ((tickEnds s = true ∧ slotEnds s = true ∧ channelsEnd s = true) →
          t.snapLv = s.lv ∧ t.snapTick = tickDuration s.freq) ∧
        (¬(tickEnds s = true ∧ slotEnds s = true ∧ channelsEnd s = true) →
          t.snapLv = s.snapLv ∧ t.snapTick = s.snapTick)) ∧
    (∀ s : State, ∃ t, exec (.wrLevels 0x8F0) s = .next t ∧ t.lv = ⟨0, 15, 8⟩) ∧
    (∀ (data : BusData) (s : State),
      ∃ t, andThen (exec (.wrLevels 0xFFFFF123) s) (exec (.rdLevels data)) = .next t ∧ t.lv = ⟨3, 2, 1⟩ ∧
        t.rdata = 0x00000123)

/-- R106. -/
def Obligations.WrFreqChangesNothing : Prop :=
  (∀ txn : BusWord, txn.extractLsb' 32 3 = 0b101 → decodeBus txn = .wrFreq (txn.extractLsb' 0 32)) ∧
    (∀ (data : BusData) (s : State), exec (.wrFreq data) s = .next { s with rdata := 0 }) ∧
    (∀ data : BusData, ∃ t, andThen (exec (.wrFreq 37) State.reset) (exec (.rdFreq data)) = .next t ∧ t.rdata = 100)

/-- R107. -/
def Obligations.WrFreqlvSetsTheFrequency : Prop :=
  (∀ txn : BusWord, txn.extractLsb' 32 3 = 0b110 → decodeBus txn = .wrFreqlv (txn.extractLsb' 0 32)) ∧
    (∀ (data : BusData) (s : State),
      exec (.wrFreqlv data) s =
        .next { s with
          freq := if 15 ≤ data.toNat then 160 else BitVec.ofNat 8 (10 * data.toNat + 10), rdata := 0 }) ∧
    (∀ (data : BusData) (s : State),
      ∃ t, exec (.wrFreqlv data) s = .next t ∧ t.freq.toNat = min (10 * data.toNat + 10) 160 ∧
        10 ≤ t.freq.toNat ∧ t.freq.toNat ≤ 160) ∧
    (∀ s : State, ∃ t, exec (.wrFreqlv 9) s = .next t ∧ t.freq = 100) ∧
    (∀ s : State, ∃ t, exec (.wrFreqlv 20) s = .next t ∧ t.freq = 160)

/-- R108. -/
def Obligations.WrTickChangesNothing : Prop :=
  (∀ txn : BusWord, txn.extractLsb' 32 3 = 0b111 → decodeBus txn = .wrTick (txn.extractLsb' 0 32)) ∧
    (∀ (data : BusData) (s : State), exec (.wrTick data) s = .next { s with rdata := 0 }) ∧
    (∀ data : BusData, ∃ t, andThen (exec (.wrTick 5) State.reset) (exec (.rdTick data)) = .next t ∧ t.rdata = 208)

/-- R64: the field of channel c is at bits 4c+3 to 4c of LEVELS, for a read and for a write; bits 31:12 read 0 and are
ignored on a write. -/
def Obligations.LevelsRegisterLayout : Prop :=
  (∀ (s : State) (c : Channel), (readRegister s .levels).extractLsb' (4 * c.val) 4 = s.lv.get c) ∧
    (∀ s : State, (readRegister s .levels).extractLsb' 12 20 = 0) ∧
    (∀ (s : State) (data : BusData) (c : Channel),
      (writeRegister s .levels data).lv.get c = data.extractLsb' (4 * c.val) 4) ∧
    (∀ (s : State) (data : BusData), readRegister (writeRegister s .levels data) .levels = data &&& 0xFFF) ∧
    readRegister State.reset .levels = 0x00000FFF

/-- R46: reads have no side effect on any element and repeat their value; a write to FREQ or TICK changes no register's
value; a write to FREQLV changes neither LEVELS nor FREQLV; writes are idempotent, and a later write of a register
replaces an earlier one (R177); writing the current levels changes nothing. -/
def Obligations.AccessSideEffects : Prop :=
  (∀ (s t : State) (data : BusData) (i : Instr),
      i ∈ [Instr.rdLevels data, .rdFreq data, .rdFreqlv data, .rdTick data] → exec i s = .next t →
      t = { s with rdata := t.rdata } ∧ exec i t = .next t ∧
        ∀ r, readRegister t r = readRegister s r) ∧
    (∀ (s : State) (data : BusData) (r : Reg),
      readRegister (writeRegister s .freq data) r = readRegister s r ∧
        readRegister (writeRegister s .tick data) r = readRegister s r) ∧
    (∀ (s : State) (data : BusData),
      readRegister (writeRegister s .freqlv data) .levels = readRegister s .levels ∧
        readRegister (writeRegister s .freqlv data) .freqlv = readRegister s .freqlv ∧
        readRegister (writeRegister s .levels data) .freq = readRegister s .freq ∧
        readRegister (writeRegister s .levels data) .tick = readRegister s .tick) ∧
    (∀ (s : State) (first second : BusData),
      andThen (exec (.wrLevels first) s) (exec (.wrLevels second)) = exec (.wrLevels second) s ∧
        andThen (exec (.wrFreqlv first) s) (exec (.wrFreqlv second)) = exec (.wrFreqlv second) s) ∧
    (∀ (s t : State) (data : BusData), exec (.wrLevels data) s = .next t → levelsOfData data = s.lv →
      t = { s with rdata := 0 })

/-- R179: a read in any later cycle returns what the last write of the register left, whatever else happens in between
but a RESET: the next cycle's read already does. -/
def Obligations.ReadsSeeTheLastWrite : Prop :=
  ∀ (p : Pins) (ps : List Pins) (s : State) (data d : BusData), s.resetSeen = true → NoReset (p :: ps) →
    ∃ s', runOn (p :: ps) s = .next s' ∧
      (p.command = some (.wrLevels data) → (∀ q ∈ ps, ¬q.WritesLevels) →
        ∃ t, exec (.rdLevels d) s' = .next t ∧ t.rdata = data &&& 0xFFF) ∧
      (p.command = some (.wrFreqlv data) → (∀ q ∈ ps, ¬q.WritesFreqlv) →
        (∃ t, exec (.rdFreq d) s' = .next t ∧ t.rdata.toNat = min (10 * data.toNat + 10) 160) ∧
          ∃ t, exec (.rdTick d) s' = .next t ∧
            t.rdata.toNat = 1000000 / (48 * min (10 * data.toNat + 10) 160))

/-! ### The cycle -/

/-- R48: one cycle, from its input signals: RESET alone where `rst` is 1, else the engine step and then the host write;
the read data from the pre-edge state, 0 where the cycle has no read (R100). -/
def Obligations.CycleAppliesItsEffectsInOrder : Prop :=
  ∀ (s : State) (p : Pins) (rest : List Pins) (r : Reg), s.resetSeen = true → s.inputs = p :: rest →
    p.busAddr = r.addr →
    step s = .next
      (let s0 := { s with inputs := rest, cycle := s.cycle + 1 }
       let s1 := if p.tuEn then engineStep s0 else s0
       let s2 := if p.busValid && p.busWe then writeRegister s1 r p.busWdata else s1
       let s3 := if p.rst then { State.reset with inputs := rest, cycle := s.cycle + 1 } else s2
       { s3 with rdata := if p.busValid && !p.busWe then readRegister s r else 0 })

/-- The engine step and a host write of one cycle commute (R48), except for the snapshot: where the step ends no frame,
the order does not matter; where it ends one, it takes the registers as they were before the write. -/
def Obligations.EngineStepAndWriteCommute : Prop :=
  ∀ (s : State) (r : Reg) (data : BusData),
    (¬(tickEnds s = true ∧ slotEnds s = true ∧ channelsEnd s = true) →
      writeRegister (engineStep s) r data = engineStep (writeRegister s r data)) ∧
      (tickEnds s = true → slotEnds s = true → channelsEnd s = true →
        (writeRegister (engineStep s) r data).snapLv = s.lv ∧
          (writeRegister (engineStep s) r data).snapTick = tickDuration s.freq ∧
          (engineStep (writeRegister s r data)).snapLv = (writeRegister s r data).lv)

/-- Signals that select nothing have no effect: `bus_we`, `bus_addr` and `bus_wdata` without `bus_valid` (R68), DATA of
a read, of WR_FREQ and of WR_TICK, DATA[31:12] of WR_LEVELS (R63), and `tu_en` and a write in a reset cycle (R170). -/
def Obligations.UnusedSignalsHaveNoEffect : Prop :=
  ∀ (p q : Pins) (s : State), p.rst = q.rst → (p.rst = false → p.tuEn = q.tuEn) →
    (p.busValid && !(p.rst && p.busWe)) = (q.busValid && !(q.rst && q.busWe)) →
    ((p.busValid && !(p.rst && p.busWe)) = true →
      p.busWe = q.busWe ∧ p.busAddr = q.busAddr ∧
        (p.busWe = true → p.busAddr = 0 → p.busWdata.extractLsb' 0 12 = q.busWdata.extractLsb' 0 12) ∧
        (p.busWe = true → p.busAddr = 2 → p.busWdata = q.busWdata)) →
    cycle p s = cycle q s

/-! ### The divider -/

/-- R81: the formula on its whole domain, and its range; the values of the vectors, an off-grid one among them. -/
def Obligations.TickDurationIsTruncatingDivision : Prop :=
  (∀ f : Freq, 10 ≤ f.toNat → f.toNat ≤ 160 →
      (tickDuration f).toNat = 1000000 / (3 * f.toNat * 16) ∧ 130 ≤ (tickDuration f).toNat ∧
        (tickDuration f).toNat ≤ 2083) ∧
    tickDuration 100 = 208 ∧ tickDuration 10 = 2083 ∧ tickDuration 160 = 130 ∧ tickDuration 37 = 563

/-- R82: the sixteen reachable tick durations, their frame lengths and truncation losses. -/
def Obligations.ReachableTickTable : Prop :=
  (List.range 16).map (fun l =>
      let f := (levelToFrequency (BitVec.ofNat 4 l)).toNat
      let t := (tickDuration (levelToFrequency (BitVec.ofNat 4 l))).toNat
      (f, t, 48 * t, 1000000 - 48 * f * t)) =
    [(10, 2083, 99984, 160), (20, 1041, 49968, 640), (30, 694, 33312, 640), (40, 520, 24960, 1600),
     (50, 416, 19968, 1600), (60, 347, 16656, 640), (70, 297, 14256, 2080), (80, 260, 12480, 1600)] ++
    [(90, 231, 11088, 2080), (100, 208, 9984, 1600), (110, 189, 9072, 2080), (120, 173, 8304, 3520),
     (130, 160, 7680, 1600), (140, 148, 7104, 5440), (150, 138, 6624, 6400), (160, 130, 6240, 1600)]

/-- R83: the exact truncating-division law, that the tick does not increase with the frequency, and that it is not
injective. -/
def Obligations.TruncationLaw : Prop :=
  (∀ f : Freq, 10 ≤ f.toNat → f.toNat ≤ 160 →
      (tickDuration f).toNat * 3 * f.toNat * 16 ≤ 1000000 ∧
        1000000 < ((tickDuration f).toNat + 1) * 3 * f.toNat * 16) ∧
    (∀ f g : Freq, 10 ≤ f.toNat → f.toNat ≤ g.toNat → g.toNat ≤ 160 → (tickDuration g).toNat ≤ (tickDuration f).toNat) ∧
    ∃ f g : Freq, 10 ≤ f.toNat ∧ f.toNat < g.toNat ∧ g.toNat ≤ 160 ∧ tickDuration f = tickDuration g

/-- R84 and R85: a level's frequency, and its extension to 32 bits, which saturates and cannot wrap. -/
def Obligations.LevelToFrequencySaturates : Prop :=
  (∀ l : Level, (levelToFrequency l).toNat = 10 * l.toNat + 10) ∧
    (∀ l m : Level, l.toNat ≤ m.toNat → (levelToFrequency l).toNat ≤ (levelToFrequency m).toNat) ∧
    (∀ w : BusData, (levelToFrequencySat w).toNat = min (max (w.toNat * 10 + 10) 10) 160) ∧
    (∀ w : BusData, levelToFrequencySat w = if 15 ≤ w.toNat then 160 else BitVec.ofNat 8 (10 * w.toNat + 10)) ∧
    (∀ l : Level, levelToFrequencySat (l.setWidth 32) = levelToFrequency l) ∧
    levelToFrequency 9 = 100 ∧ levelToFrequencySat 16 = 160 ∧ levelToFrequencySat 20 = 160 ∧
    levelToFrequencySat 0xFFFFFFFF = 160

/-- The bounds of R87 on a frame of 48·t time units, with t the tick of any frequency of the divider's domain: it never
exceeds K / f and falls short of it by less than 48, so the frame rate is at least f. -/
def Obligations.FrameLengthBounds : Prop :=
  ∀ f : Freq, 10 ≤ f.toNat → f.toNat ≤ 160 →
    (1000000 : Rat) / f.toNat - 48 < 48 * (tickDuration f).toNat ∧
      (48 * (tickDuration f).toNat : Rat) ≤ 1000000 / f.toNat ∧
      (f.toNat : Rat) ≤ 1000000 / (48 * (tickDuration f).toNat)

/-! ### The engine -/

/-- The engine step's four cases (R122) and its frame: no other field changes, the model's `rdata` among them, which the
cycle sets (log entry 8); that a tick never ends in two consecutive steps; and the worked example of R122. -/
def Obligations.TuStepAdvancesOneTimeUnit : Prop :=
  decodePort 0b01 = .tuStep ∧
    (∀ s : State,
      exec .tuStep s = .next
        (if s.sub.toNat + 1 < s.snapTick.toNat then { s with sub := s.sub + 1 }
         else if s.pos.toNat < 15 then { s with sub := 0, pos := s.pos + 1 }
         else if s.ch.toNat < 2 then { s with sub := 0, pos := 0, ch := s.ch + 1 }
         else { s with sub := 0, pos := 0, ch := 0, snapLv := s.lv, snapTick := tickDuration s.freq })) ∧
    (∀ s t : State, s.WellFormed → exec .tuStep s = .next t → tickEnds s = true → tickEnds t = false) ∧
    (∀ s : State, s.ch = 2 → s.pos = 15 → s.sub = 207 → s.snapTick = 208 → s.lv = ⟨0, 15, 8⟩ → s.freq = 100 →
      ∃ t, exec .tuStep s = .next t ∧ t.ch = 0 ∧ t.pos = 0 ∧ t.sub = 0 ∧ t.snapLv = ⟨0, 15, 8⟩ ∧ t.snapTick = 208)

/-- R123: the snapshot is taken in the frame's last time unit and in no other cycle: there SNAP_LV and SNAP_TICK take LV
and FREQ as they were before the edge; RESET is their only other writer. -/
def Obligations.SnapshotOnlyAtTheFrameEnd : Prop :=
  ∀ s s' : State, s.resetSeen = true → s.WellFormed → step s = .next s' →
    (s.nextPins.ticks = true → s.framePosition + 1 = s.frameLength →
      s'.snapLv = s.lv ∧ s'.snapTick = tickDuration s.freq ∧ s'.AtFrameStart) ∧
      (s.nextPins.rst = true → s'.snapLv = ⟨15, 15, 15⟩ ∧ s'.snapTick = 208 ∧ s'.AtFrameStart) ∧
      (s.nextPins.rst = false → ¬(s.nextPins.ticks = true ∧ s.framePosition + 1 = s.frameLength) →
        s'.snapLv = s.snapLv ∧ s'.snapTick = s.snapTick ∧
          s'.framePosition = s.framePosition + if s.nextPins.ticks then 1 else 0)

/-- R124: IDLE keeps the engine's state, and the outputs with it, for any number of cycles without a time unit, whatever
the host does in them. On its own it leaves the model's own fields too (log entry 8); in a cycle `rdata` records the
read data (log entry 3). -/
def Obligations.IdleHoldsTheEngine : Prop :=
  decodePort 0b00 = .idle ∧ (∀ s : State, exec .idle s = .next s) ∧
    (∀ (ps : List Pins) (s : State), s.resetSeen = true → NoReset ps → timeUnits ps = 0 →
      ∃ s', runOn ps s = .next s' ∧ s'.snapLv = s.snapLv ∧ s'.snapTick = s.snapTick ∧ s'.ch = s.ch ∧ s'.pos = s.pos ∧
        s'.sub = s.sub ∧ ∀ c, out s' c = out s c) ∧
    (∀ (ps : List Pins) (s : State), s.resetSeen = true → NoReset ps → timeUnits ps = 0 →
      (∀ p ∈ ps, p.busValid = false) →
      ∃ s', runOn ps s = .next s' ∧ s' = { s with rdata := s'.rdata, inputs := [], cycle := s.cycle + ps.length })

/-- R125: the channels are serviced in the order 0, 1, 2, and then 0 again, with a new frame. -/
def Obligations.ChannelsInFixedOrder : Prop :=
  ∀ s s' : State, s.resetSeen = true → s.WellFormed → s.nextPins.rst = false → step s = .next s' →
    s'.ch = s.ch ∨ (s.ch = 0 ∧ s'.ch = 1) ∨ (s.ch = 1 ∧ s'.ch = 2) ∨
      (s.ch = 2 ∧ s'.ch = 0 ∧ s'.snapLv = s.lv ∧ s'.AtFrameStart)

/-- R126: the output lines, as functions of the state; they depend on no input of the cycle, and no host command drives
one: a cycle without a time unit and without RESET leaves all three. -/
def Obligations.OutputLinesCompareTheLevel : Prop :=
  (∀ s : State,
      (out s 0 = true ↔ s.ch = 0 ∧ s.pos < s.snapLv.ch0) ∧ (out s 1 = true ↔ s.ch = 1 ∧ s.pos < s.snapLv.ch1) ∧
        (out s 2 = true ↔ s.ch = 2 ∧ s.pos < s.snapLv.ch2)) ∧
    (∀ s s' : State, s.nextPins.rst = false → s.nextPins.tuEn = false → step s = .next s' → ∀ c, out s' c = out s c) ∧
    (∀ (p : Pins) (s : State) (o : Observation), observe p s = .next o →
      o.out0 = out s 0 ∧ o.out1 = out s 1 ∧ o.out2 = out s 2)

/-- What is observed in a cycle (R9), the run's first RESET cycle among them: the output lines of the state before the
edge, and the read data the cycle leaves in the model's record of `bus_rdata` (log entry 3). -/
def Obligations.ObservationsOfACycle : Prop :=
  ∀ (p : Pins) (s s' : State), cycle p s = .next s' →
    observe p s = .next ⟨out s 0, out s 1, out s 2, s'.rdata⟩

/-- The laws of R127: at most one line is high, none is in the last tick of a slot, and no cycle but a RESET (log entry
14) both lowers one line and raises another. -/
def Obligations.AtMostOneLineHigh : Prop :=
  (∀ (s : State) (c d : Channel), out s c = true → out s d = true → c = d) ∧
    (∀ (s : State) (c : Channel), s.pos = 15 → out s c = false) ∧
    (∀ (s s' : State) (c d : Channel), s.nextPins.rst = false → step s = .next s' →
      ¬(out s c = true ∧ out s' c = false ∧ out s d = false ∧ out s' d = true))

/-- The engine reads LV and FREQ only at a snapshot (R50): from two states with the same engine state, in cycles that
count the same time unit and take no snapshot, the engine's next state and the outputs are the same, whatever the
registers hold and whatever the two cycles' commands are. -/
def Obligations.HostRegistersDoNotReachTheFrame : Prop :=
  ∀ (p q : Pins) (s t s' t' : State), p.rst = false → q.rst = false → p.tuEn = q.tuEn →
    s.snapLv = t.snapLv → s.snapTick = t.snapTick → s.ch = t.ch → s.pos = t.pos → s.sub = t.sub →
    (p.tuEn = true → ¬(tickEnds s = true ∧ slotEnds s = true ∧ channelsEnd s = true)) →
    cycle p s = .next s' → cycle q t = .next t' →
    s'.snapLv = t'.snapLv ∧ s'.snapTick = t'.snapTick ∧ s'.ch = t'.ch ∧ s'.pos = t'.pos ∧ s'.sub = t'.sub ∧
      ∀ c, out s' c = out t' c

/-! ### Frames -/

/-- R128: the frame law. Over any cycles without RESET, with any host commands and any idle cycles among them, the k-th
time unit of a frame finds the counters and the outputs where the formulas say. -/
def Obligations.FrameLaw : Prop :=
  ∀ (ps : List Pins) (s : State), s.resetSeen = true → s.WellFormed → s.AtFrameStart → NoReset ps →
    timeUnits ps < 48 * s.snapTick.toNat →
    ∃ s', runOn ps s = .next s' ∧
      s'.ch.toNat = timeUnits ps / (16 * s.snapTick.toNat) ∧
      s'.pos.toNat = timeUnits ps % (16 * s.snapTick.toNat) / s.snapTick.toNat ∧
      s'.sub.toNat = timeUnits ps % s.snapTick.toNat ∧ s'.snapLv = s.snapLv ∧ s'.snapTick = s.snapTick ∧
      ∀ c : Channel, out s' c = true ↔
        c.val = timeUnits ps / (16 * s.snapTick.toNat) ∧
          timeUnits ps % (16 * s.snapTick.toNat) < (s.snapLv.get c).toNat * s.snapTick.toNat

/-- R129: a frame lasts exactly 48·T time units, whatever its levels: the cycle of the 48·T-th begins the next frame, and
no cycle before it does; each slot lasts 16·T of them. -/
def Obligations.FrameLastsExactly48Ticks : Prop :=
  ∀ (ps : List Pins) (q : Pins) (s : State), s.resetSeen = true → s.WellFormed → s.AtFrameStart →
    NoReset (ps ++ [q]) → q.ticks = true →
    (timeUnits (ps ++ [q]) = 48 * s.snapTick.toNat →
      ∃ s1 s2, runOn ps s = .next s1 ∧ runOn (ps ++ [q]) s = .next s2 ∧ s2.AtFrameStart ∧ s2.snapLv = s1.lv ∧
        s2.snapTick = tickDuration s1.freq) ∧
      (timeUnits (ps ++ [q]) < 48 * s.snapTick.toNat → ∃ s2, runOn (ps ++ [q]) s = .next s2 ∧ ¬s2.AtFrameStart) ∧
      (∀ c : Nat, 1 ≤ c → c ≤ 2 → timeUnits (ps ++ [q]) = 16 * s.snapTick.toNat * c →
        ∃ s2, runOn (ps ++ [q]) s = .next s2 ∧ s2.ch.toNat = c ∧ s2.pos = 0 ∧ s2.sub = 0)

/-- R130, R131: the duty cycle. Over the time units of one frame, line c is high for one unbroken run of L[c]·T of them
at the start of its slot and low in all others: for L[c]·T of 48·T in all. -/
def Obligations.DutyCycle : Prop :=
  ∀ (s : State) (c : Channel), s.resetSeen = true → s.WellFormed → s.AtFrameStart →
    (∀ k, k < 48 * s.snapTick.toNat →
      ∃ s', runOn (List.replicate k Pins.timeUnit) s = .next s' ∧
        (out s' c = true ↔ 16 * s.snapTick.toNat * c.val ≤ k ∧
          k < 16 * s.snapTick.toNat * c.val + (s.snapLv.get c).toNat * s.snapTick.toNat)) ∧
      (List.range (48 * s.snapTick.toNat)).countP (fun k =>
          match runOn (List.replicate k Pins.timeUnit) s with
          | .next s' => out s' c
          | _ => false) = (s.snapLv.get c).toNat * s.snapTick.toNat ∧
      (s.snapLv.get c).toNat * s.snapTick.toNat + s.snapTick.toNat ≤ 16 * s.snapTick.toNat

/-- R172: around a reset. In the first RESET cycle the lines are still those of the state before it, the
unspecified state of power-up among them. After one or more
RESET cycles from any state, and until 15·208 = 3120 time units have been counted, line 0 alone is high, whatever the
host does; then, to the end of the slot, no line is. -/
def Obligations.FirstFrameAfterReset : Prop :=
  ∀ (p : Pins) (rs ps : List Pins) (s : State), (∀ r ∈ p :: rs, r.rst = true) → NoReset ps →
    (timeUnits ps < 3120 →
      ∃ s', runOn (p :: rs ++ ps) s = .next s' ∧ out s' 0 = true ∧ out s' 1 = false ∧ out s' 2 = false) ∧
      (3120 ≤ timeUnits ps → timeUnits ps < 3328 →
        ∃ s', runOn (p :: rs ++ ps) s = .next s' ∧ out s' 0 = false ∧ out s' 1 = false ∧ out s' 2 = false) ∧
      ∃ o, observe p s = .next o ∧ o.out0 = out s 0 ∧ o.out1 = out s 1 ∧ o.out2 = out s 2

/-- R175: when a write reaches the outputs. A write that does not share its cycle with the frame's last time unit is
taken by the snapshot that the (48·T − k)-th time unit makes, counted from the write's own cycle, and by none before; one
that does share it is passed over by that snapshot and taken by the next, 48·T′ time units later. -/
def Obligations.WritesReachTheNextSnapshot : Prop :=
  (∀ (p q : Pins) (ps : List Pins) (s : State), s.resetSeen = true → s.WellFormed → NoReset (p :: ps ++ [q]) →
      q.ticks = true → timeUnits (p :: ps ++ [q]) = s.frameLength - s.framePosition →
      ∃ s1 s2, runOn (p :: ps) s = .next s1 ∧ runOn (p :: ps ++ [q]) s = .next s2 ∧
        s1.snapLv = s.snapLv ∧ s1.snapTick = s.snapTick ∧ s2.AtFrameStart ∧
        (∀ data, p.command = some (.wrLevels data) → (∀ r ∈ ps, ¬r.WritesLevels) → s2.snapLv = levelsOfData data) ∧
        (∀ data, p.command = some (.wrFreqlv data) → (∀ r ∈ ps, ¬r.WritesFreqlv) →
          s2.snapTick = tickDuration (levelToFrequencySat data))) ∧
    (∀ (p q : Pins) (ps : List Pins) (s : State), s.resetSeen = true → s.WellFormed → NoReset (p :: ps ++ [q]) →
      p.ticks = true → s.framePosition + 1 = s.frameLength → q.ticks = true →
      timeUnits (ps ++ [q]) = 48 * (tickDuration s.freq).toNat →
      ∃ s0 s1 s2, runOn [p] s = .next s0 ∧ runOn (p :: ps) s = .next s1 ∧ runOn (p :: ps ++ [q]) s = .next s2 ∧
        s0.snapLv = s.lv ∧ s0.snapTick = tickDuration s.freq ∧ s1.snapLv = s.lv ∧ s1.snapTick = tickDuration s.freq ∧
        s2.AtFrameStart ∧
        (∀ data, p.command = some (.wrLevels data) → (∀ r ∈ ps, ¬r.WritesLevels) → s2.snapLv = levelsOfData data) ∧
        (∀ data, p.command = some (.wrFreqlv data) → (∀ r ∈ ps, ¬r.WritesFreqlv) →
          s2.snapTick = tickDuration (levelToFrequencySat data))) ∧
    (∀ s : State, s.WellFormed →
      1 ≤ s.frameLength - s.framePosition ∧ s.frameLength - s.framePosition ≤ 99984 ∧
        1 + 48 * (tickDuration s.freq).toNat ≤ 99985)

/-- R55 and R45, as the source's atomicity of the triple: in every run from reset, the levels and the tick of the current
frame are those LV and FREQ gave together at one instant of the run, never a mix. -/
def Obligations.SnapshotsAreOfOneInstant : Prop :=
  ∀ (ps : List Pins) (s' : State), runOn ps State.reset = .next s' →
    ∃ (before after : List Pins) (t : State), ps = before ++ after ∧ runOn before State.reset = .next t ∧
      s'.snapLv = t.lv ∧ s'.snapTick = tickDuration t.freq

/-- The cross-field hazard (R176): with a snapshot between a write of LEVELS and a write of FREQLV, the frame that begins
has the new levels and the old tick; in the other order, the new tick and the old levels. -/
def Obligations.SnapshotBetweenTwoWrites : Prop :=
  ∀ (p q r : Pins) (s : State) (data w : BusData), s.resetSeen = true → s.WellFormed → NoReset [p, q, r] →
    p.tuEn = false → q.tuEn = true → q.busValid = false → s.framePosition + 1 = s.frameLength →
    (p.command = some (.wrLevels data) → r.command = some (.wrFreqlv w) → r.tuEn = false →
      ∃ s', runOn [p, q, r] s = .next s' ∧ s'.snapLv = levelsOfData data ∧ s'.snapTick = tickDuration s.freq ∧
        s'.freq = levelToFrequencySat w) ∧
      (p.command = some (.wrFreqlv w) → r.command = some (.wrLevels data) → r.tuEn = false →
        ∃ s', runOn [p, q, r] s = .next s' ∧ s'.snapLv = s.lv ∧ s'.snapTick = tickDuration (levelToFrequencySat w) ∧
          s'.lv = levelsOfData data)
end

