-- ==== Sys2Proof/Laws/State.lean ====
section
/-! SUPPORT. For each update of the state, one lemma for each field: what it writes, and that it leaves the others. -/

namespace Sys2Proof.Machine

@[simp] theorem State.setRdata_lv (s : State) (v : BusData) : (s.setRdata v).lv = s.lv := rfl
@[simp] theorem State.setRdata_freq (s : State) (v : BusData) : (s.setRdata v).freq = s.freq := rfl
@[simp] theorem State.setRdata_snapLv (s : State) (v : BusData) : (s.setRdata v).snapLv = s.snapLv := rfl
@[simp] theorem State.setRdata_snapTick (s : State) (v : BusData) : (s.setRdata v).snapTick = s.snapTick := rfl
@[simp] theorem State.setRdata_ch (s : State) (v : BusData) : (s.setRdata v).ch = s.ch := rfl
@[simp] theorem State.setRdata_pos (s : State) (v : BusData) : (s.setRdata v).pos = s.pos := rfl
@[simp] theorem State.setRdata_sub (s : State) (v : BusData) : (s.setRdata v).sub = s.sub := rfl
@[simp] theorem State.setRdata_rdata (s : State) (v : BusData) : (s.setRdata v).rdata = v := rfl
@[simp] theorem State.setRdata_resetSeen (s : State) (v : BusData) : (s.setRdata v).resetSeen = s.resetSeen := rfl
@[simp] theorem State.setRdata_inputs (s : State) (v : BusData) : (s.setRdata v).inputs = s.inputs := rfl
@[simp] theorem State.setRdata_cycle (s : State) (v : BusData) : (s.setRdata v).cycle = s.cycle := rfl

@[simp] theorem State.setLv_lv (s : State) (l : Levels) : (s.setLv l).lv = l := rfl
@[simp] theorem State.setLv_freq (s : State) (l : Levels) : (s.setLv l).freq = s.freq := rfl
@[simp] theorem State.setLv_snapLv (s : State) (l : Levels) : (s.setLv l).snapLv = s.snapLv := rfl
@[simp] theorem State.setLv_snapTick (s : State) (l : Levels) : (s.setLv l).snapTick = s.snapTick := rfl
@[simp] theorem State.setLv_ch (s : State) (l : Levels) : (s.setLv l).ch = s.ch := rfl
@[simp] theorem State.setLv_pos (s : State) (l : Levels) : (s.setLv l).pos = s.pos := rfl
@[simp] theorem State.setLv_sub (s : State) (l : Levels) : (s.setLv l).sub = s.sub := rfl
@[simp] theorem State.setLv_rdata (s : State) (l : Levels) : (s.setLv l).rdata = s.rdata := rfl
@[simp] theorem State.setLv_resetSeen (s : State) (l : Levels) : (s.setLv l).resetSeen = s.resetSeen := rfl
@[simp] theorem State.setLv_inputs (s : State) (l : Levels) : (s.setLv l).inputs = s.inputs := rfl
@[simp] theorem State.setLv_cycle (s : State) (l : Levels) : (s.setLv l).cycle = s.cycle := rfl

@[simp] theorem State.setFreq_lv (s : State) (f : Freq) : (s.setFreq f).lv = s.lv := rfl
@[simp] theorem State.setFreq_freq (s : State) (f : Freq) : (s.setFreq f).freq = f := rfl
@[simp] theorem State.setFreq_snapLv (s : State) (f : Freq) : (s.setFreq f).snapLv = s.snapLv := rfl
@[simp] theorem State.setFreq_snapTick (s : State) (f : Freq) : (s.setFreq f).snapTick = s.snapTick := rfl
@[simp] theorem State.setFreq_ch (s : State) (f : Freq) : (s.setFreq f).ch = s.ch := rfl
@[simp] theorem State.setFreq_pos (s : State) (f : Freq) : (s.setFreq f).pos = s.pos := rfl
@[simp] theorem State.setFreq_sub (s : State) (f : Freq) : (s.setFreq f).sub = s.sub := rfl
@[simp] theorem State.setFreq_rdata (s : State) (f : Freq) : (s.setFreq f).rdata = s.rdata := rfl
@[simp] theorem State.setFreq_resetSeen (s : State) (f : Freq) : (s.setFreq f).resetSeen = s.resetSeen := rfl
@[simp] theorem State.setFreq_inputs (s : State) (f : Freq) : (s.setFreq f).inputs = s.inputs := rfl
@[simp] theorem State.setFreq_cycle (s : State) (f : Freq) : (s.setFreq f).cycle = s.cycle := rfl

@[simp] theorem State.setPlace_lv (s : State) (c : BitVec 2) (p : BitVec 4) (u : BitVec 12) : (s.setPlace c p u).lv = s.lv := rfl
@[simp] theorem State.setPlace_freq (s : State) (c : BitVec 2) (p : BitVec 4) (u : BitVec 12) : (s.setPlace c p u).freq = s.freq := rfl
@[simp] theorem State.setPlace_snapLv (s : State) (c : BitVec 2) (p : BitVec 4) (u : BitVec 12) : (s.setPlace c p u).snapLv = s.snapLv := rfl
@[simp] theorem State.setPlace_snapTick (s : State) (c : BitVec 2) (p : BitVec 4) (u : BitVec 12) : (s.setPlace c p u).snapTick = s.snapTick := rfl
@[simp] theorem State.setPlace_ch (s : State) (c : BitVec 2) (p : BitVec 4) (u : BitVec 12) : (s.setPlace c p u).ch = c := rfl
@[simp] theorem State.setPlace_pos (s : State) (c : BitVec 2) (p : BitVec 4) (u : BitVec 12) : (s.setPlace c p u).pos = p := rfl
@[simp] theorem State.setPlace_sub (s : State) (c : BitVec 2) (p : BitVec 4) (u : BitVec 12) : (s.setPlace c p u).sub = u := rfl
@[simp] theorem State.setPlace_rdata (s : State) (c : BitVec 2) (p : BitVec 4) (u : BitVec 12) : (s.setPlace c p u).rdata = s.rdata := rfl
@[simp] theorem State.setPlace_resetSeen (s : State) (c : BitVec 2) (p : BitVec 4) (u : BitVec 12) : (s.setPlace c p u).resetSeen = s.resetSeen := rfl
@[simp] theorem State.setPlace_inputs (s : State) (c : BitVec 2) (p : BitVec 4) (u : BitVec 12) : (s.setPlace c p u).inputs = s.inputs := rfl
@[simp] theorem State.setPlace_cycle (s : State) (c : BitVec 2) (p : BitVec 4) (u : BitVec 12) : (s.setPlace c p u).cycle = s.cycle := rfl

@[simp] theorem State.setSnapshot_lv (s : State) (l : Levels) (t : Tick) : (s.setSnapshot l t).lv = s.lv := rfl
@[simp] theorem State.setSnapshot_freq (s : State) (l : Levels) (t : Tick) : (s.setSnapshot l t).freq = s.freq := rfl
@[simp] theorem State.setSnapshot_snapLv (s : State) (l : Levels) (t : Tick) : (s.setSnapshot l t).snapLv = l := rfl
@[simp] theorem State.setSnapshot_snapTick (s : State) (l : Levels) (t : Tick) : (s.setSnapshot l t).snapTick = t := rfl
@[simp] theorem State.setSnapshot_ch (s : State) (l : Levels) (t : Tick) : (s.setSnapshot l t).ch = s.ch := rfl
@[simp] theorem State.setSnapshot_pos (s : State) (l : Levels) (t : Tick) : (s.setSnapshot l t).pos = s.pos := rfl
@[simp] theorem State.setSnapshot_sub (s : State) (l : Levels) (t : Tick) : (s.setSnapshot l t).sub = s.sub := rfl
@[simp] theorem State.setSnapshot_rdata (s : State) (l : Levels) (t : Tick) : (s.setSnapshot l t).rdata = s.rdata := rfl
@[simp] theorem State.setSnapshot_resetSeen (s : State) (l : Levels) (t : Tick) : (s.setSnapshot l t).resetSeen = s.resetSeen := rfl
@[simp] theorem State.setSnapshot_inputs (s : State) (l : Levels) (t : Tick) : (s.setSnapshot l t).inputs = s.inputs := rfl
@[simp] theorem State.setSnapshot_cycle (s : State) (l : Levels) (t : Tick) : (s.setSnapshot l t).cycle = s.cycle := rfl

@[simp] theorem State.takeInput_lv (s : State) : (s.takeInput).lv = s.lv := rfl
@[simp] theorem State.takeInput_freq (s : State) : (s.takeInput).freq = s.freq := rfl
@[simp] theorem State.takeInput_snapLv (s : State) : (s.takeInput).snapLv = s.snapLv := rfl
@[simp] theorem State.takeInput_snapTick (s : State) : (s.takeInput).snapTick = s.snapTick := rfl
@[simp] theorem State.takeInput_ch (s : State) : (s.takeInput).ch = s.ch := rfl
@[simp] theorem State.takeInput_pos (s : State) : (s.takeInput).pos = s.pos := rfl
@[simp] theorem State.takeInput_sub (s : State) : (s.takeInput).sub = s.sub := rfl
@[simp] theorem State.takeInput_rdata (s : State) : (s.takeInput).rdata = s.rdata := rfl
@[simp] theorem State.takeInput_resetSeen (s : State) : (s.takeInput).resetSeen = s.resetSeen := rfl
@[simp] theorem State.takeInput_inputs (s : State) : (s.takeInput).inputs = s.inputs.tail := rfl
@[simp] theorem State.takeInput_cycle (s : State) : (s.takeInput).cycle = s.cycle + 1 := rfl

@[simp] theorem State.withProgram_lv (s : State) (ps : List Pins) : (s.withProgram ps).lv = s.lv := rfl
@[simp] theorem State.withProgram_freq (s : State) (ps : List Pins) : (s.withProgram ps).freq = s.freq := rfl
@[simp] theorem State.withProgram_snapLv (s : State) (ps : List Pins) : (s.withProgram ps).snapLv = s.snapLv := rfl
@[simp] theorem State.withProgram_snapTick (s : State) (ps : List Pins) : (s.withProgram ps).snapTick = s.snapTick := rfl
@[simp] theorem State.withProgram_ch (s : State) (ps : List Pins) : (s.withProgram ps).ch = s.ch := rfl
@[simp] theorem State.withProgram_pos (s : State) (ps : List Pins) : (s.withProgram ps).pos = s.pos := rfl
@[simp] theorem State.withProgram_sub (s : State) (ps : List Pins) : (s.withProgram ps).sub = s.sub := rfl
@[simp] theorem State.withProgram_rdata (s : State) (ps : List Pins) : (s.withProgram ps).rdata = s.rdata := rfl
@[simp] theorem State.withProgram_resetSeen (s : State) (ps : List Pins) : (s.withProgram ps).resetSeen = s.resetSeen := rfl
@[simp] theorem State.withProgram_inputs (s : State) (ps : List Pins) : (s.withProgram ps).inputs = ps := rfl
@[simp] theorem State.withProgram_cycle (s : State) (ps : List Pins) : (s.withProgram ps).cycle = s.cycle := rfl

@[simp] theorem resetElements_lv (s : State) : (resetElements s).lv = ⟨15, 15, 15⟩ := rfl
@[simp] theorem resetElements_freq (s : State) : (resetElements s).freq = 100 := rfl
@[simp] theorem resetElements_snapLv (s : State) : (resetElements s).snapLv = ⟨15, 15, 15⟩ := rfl
@[simp] theorem resetElements_snapTick (s : State) : (resetElements s).snapTick = 208 := rfl
@[simp] theorem resetElements_ch (s : State) : (resetElements s).ch = 0 := rfl
@[simp] theorem resetElements_pos (s : State) : (resetElements s).pos = 0 := rfl
@[simp] theorem resetElements_sub (s : State) : (resetElements s).sub = 0 := rfl
@[simp] theorem resetElements_rdata (s : State) : (resetElements s).rdata = s.rdata := rfl
@[simp] theorem resetElements_resetSeen (s : State) : (resetElements s).resetSeen = true := rfl
@[simp] theorem resetElements_inputs (s : State) : (resetElements s).inputs = s.inputs := rfl
@[simp] theorem resetElements_cycle (s : State) : (resetElements s).cycle = s.cycle := rfl

end Sys2Proof.Machine
end

