-- ==== Sys2Proof/Laws/Ops.lean ====
section
/-! SUPPORT. The specification lemmas of the shared operations: the divider, the host registers, the engine step. -/

namespace Sys2Proof.Machine

/-! ### The divider -/

/-- A frequency is a number below 256. -/
theorem freq_lt (f : Freq) : f.toNat < 256 := f.isLt

/-- The two conversions agree with the closed form of R85. -/
theorem clampedFrequency_eq (w : Nat) : clampedFrequency w = if 15 ≤ w then 160 else 10 * w + 10 := by
  simp only [clampedFrequency, clamp, Config.fStep, Config.fOff, Config.fMin, Config.fMax]
  split <;> omega

theorem clampedFrequency_lt (w : Nat) : clampedFrequency w < 256 := by
  rw [clampedFrequency_eq]; split <;> omega

theorem levelToFrequencySat_toNat (w : BusData) : (levelToFrequencySat w).toNat = clampedFrequency w.toNat := by
  simp [levelToFrequencySat, Nat.mod_eq_of_lt (clampedFrequency_lt _)]

theorem levelToFrequency_toNat (l : Level) : (levelToFrequency l).toNat = clampedFrequency l.toNat := by
  simp [levelToFrequency, Nat.mod_eq_of_lt (clampedFrequency_lt _)]

/-- Every conversion of a level is on the grid (R80). -/
theorem clampedFrequency_grid (w : Nat) : ∃ l, l < 16 ∧ clampedFrequency w = 10 * l + 10 := by
  rw [clampedFrequency_eq]
  split
  · exact ⟨15, by omega, rfl⟩
  · exact ⟨w, by omega, rfl⟩

theorem onGrid_levelToFrequencySat (w : BusData) : OnGrid (levelToFrequencySat w) := by
  obtain ⟨l, hl, h⟩ := clampedFrequency_grid w.toNat
  exact ⟨l, hl, by rw [levelToFrequencySat_toNat, h]; rfl⟩

/-- A grid frequency lies in [10, 160] (R80). -/
theorem OnGrid.bounds {f : Freq} (h : OnGrid f) : 10 ≤ f.toNat ∧ f.toNat ≤ 160 := by
  obtain ⟨l, hl, h⟩ := h
  simp only [Config.levels, Config.fStep, Config.fOff] at hl h
  omega

/-- The tick of a grid frequency is a grid tick (R33). -/
theorem OnGrid.isGridTick {f : Freq} (h : OnGrid f) : IsGridTick (tickDuration f) := by
  obtain ⟨l, hl, h⟩ := h
  refine ⟨l, hl, ?_⟩
  rw [← h, BitVec.ofNat_toNat, BitVec.setWidth_eq]

/-- The values of the divider on the grid lie in [130, 2083] (R7, R82). -/
theorem IsGridTick.bounds {t : Tick} (h : IsGridTick t) : 130 ≤ t.toNat ∧ t.toNat ≤ 2083 := by
  obtain ⟨l, hl, rfl⟩ := h
  revert l
  decide

/-! ### The host registers -/

theorem readRegister_setRdata (s : State) (v : BusData) (r : Reg) : readRegister (s.setRdata v) r = readRegister s r := by
  cases r <;> rfl

/-- A read depends on LV and FREQ alone. -/
theorem readRegister_congr {s t : State} (hl : s.lv = t.lv) (hf : s.freq = t.freq) (r : Reg) :
    readRegister s r = readRegister t r := by
  cases r <;> simp [readRegister, hl, hf]

/-- A write touches LV and FREQ alone (R48): everything else of the state stays. -/
theorem writeRegister_frame (s : State) (r : Reg) (data : BusData) :
    writeRegister s r data = { s with lv := (writeRegister s r data).lv, freq := (writeRegister s r data).freq } := by
  cases r <;> rfl

/-- What a write leaves in LV and FREQ. -/
theorem writeRegister_lv (s : State) (r : Reg) (data : BusData) :
    (writeRegister s r data).lv = if r = .levels then levelsOfData data else s.lv := by
  cases r <;> rfl

theorem writeRegister_freq (s : State) (r : Reg) (data : BusData) :
    (writeRegister s r data).freq = if r = .freqlv then levelToFrequencySat data else s.freq := by
  cases r <;> rfl

/-! ### The engine step -/

/-- The step writes only SNAP_LV, SNAP_TICK, CH, POS and SUB (R48). -/
theorem engineStep_frame (s : State) :
    engineStep s = { s with
      snapLv := (engineStep s).snapLv, snapTick := (engineStep s).snapTick, ch := (engineStep s).ch,
      pos := (engineStep s).pos, sub := (engineStep s).sub } := by
  unfold engineStep
  split
  · split
    · split <;> rfl
    · rfl
  · rfl

/-- The four cases of the step (R122). -/
theorem engineStep_cases (s : State) :
    (s.sub.toNat + 1 < s.snapTick.toNat ∧ engineStep s = s.setPlace s.ch s.pos (s.sub + 1)) ∨
      (s.snapTick.toNat ≤ s.sub.toNat + 1 ∧ s.pos.toNat < 15 ∧ engineStep s = s.setPlace s.ch (s.pos + 1) 0) ∨
      (s.snapTick.toNat ≤ s.sub.toNat + 1 ∧ 15 ≤ s.pos.toNat ∧ s.ch.toNat < 2 ∧
        engineStep s = s.setPlace (s.ch + 1) 0 0) ∨
      (s.snapTick.toNat ≤ s.sub.toNat + 1 ∧ 15 ≤ s.pos.toNat ∧ 2 ≤ s.ch.toNat ∧
        engineStep s = (s.setSnapshot s.lv (tickDuration s.freq)).setPlace 0 0 0) := by
  simp only [engineStep, tickEnds, slotEnds, channelsEnd, Config.levels, Config.nch, Bool.not_eq_true',
    decide_eq_false_iff_not, snapshot]
  by_cases h1 : s.sub.toNat + 1 < s.snapTick.toNat
  · simp [h1]
  · by_cases h2 : s.pos.toNat < 15
    · simp [h1, h2]; omega
    · by_cases h3 : s.ch.toNat < 2
      · simp [h1, h2, h3]; omega
      · simp [h1, h2, h3]; omega

/-! ### The carries and the output lines -/

theorem tickEnds_iff (s : State) : tickEnds s = true ↔ s.snapTick.toNat ≤ s.sub.toNat + 1 := by
  rw [tickEnds, Bool.not_eq_true', decide_eq_false_iff_not, Nat.not_lt]

theorem slotEnds_iff (s : State) : slotEnds s = true ↔ 15 ≤ s.pos.toNat := by
  rw [slotEnds, Bool.not_eq_true', decide_eq_false_iff_not, Nat.not_lt]; rfl

theorem channelsEnd_iff (s : State) : channelsEnd s = true ↔ 2 ≤ s.ch.toNat := by
  rw [channelsEnd, Bool.not_eq_true', decide_eq_false_iff_not, Nat.not_lt]; rfl

/-- A line is high exactly in its own channel's slot, below its level (R126). -/
theorem out_iff (s : State) (c : Channel) :
    out s c = true ↔ s.ch.toNat = c.val ∧ s.pos.toNat < (s.snapLv.get c).toNat := by
  rw [out, levelCompare, Bool.and_eq_true, decide_eq_true_iff, decide_eq_true_iff]

/-! ### The commands -/

/-- What each bus command does: a read or a write of one register. -/
theorem exec_decodeBus (txn : BusWord) (s : State) :
    exec (decodeBus txn) s = .next
      (let r : Reg :=
        match txn.getLsbD 33, txn.getLsbD 32 with
        | false, false => .levels
        | false, true => .freq
        | true, false => .freqlv
        | true, true => .tick
       if txn.getLsbD 34 then hostWrite s r (txn.extractLsb' 0 32) else hostRead s r) := by
  unfold decodeBus
  cases txn.getLsbD 34 <;> cases txn.getLsbD 33 <;> cases txn.getLsbD 32 <;> rfl

/-- Every operation answers a next state, from every state. -/
theorem exec_next (i : Instr) (s : State) : ∃ t, exec i s = .next t := by
  cases i <;> exact ⟨_, rfl⟩

end Sys2Proof.Machine
end

