-- ==== Sys2Proof/Laws/Cycle.lean ====
section
/-! SUPPORT. What one cycle and one step can do: one equation, and one frame lemma for each part of the state. -/

namespace Sys2Proof

/-- The register at a word address (R41). -/
def Reg.ofAddr (a : BusAddr) : Reg :=
  match a.getLsbD 1, a.getLsbD 0 with
  | false, false => .levels
  | false, true => .freq
  | true, false => .freqlv
  | true, true => .tick

@[simp] theorem Reg.ofAddr_addr (r : Reg) : Reg.ofAddr r.addr = r := by cases r <;> rfl

theorem Reg.addr_ofAddr (a : BusAddr) : (Reg.ofAddr a).addr = a := by revert a; decide

/-- The event of a cycle (R67). -/
theorem Pins.event_eq (p : Pins) :
    p.event = if p.rst then .reset p.tuEn else if p.tuEn then .tuStep else .idle := by
  simp only [Pins.event, Pins.portCode]
  cases p.rst <;> cases p.tuEn <;> decide

/-- The command of a cycle that carries none. -/
theorem Pins.command_none {p : Pins} (h : p.busValid = false) : p.command = none := by
  simp [Pins.command, Pins.busWord, h]

/-! ### The fields of a bus word -/

/-- A bit of a bus word: DATA, then ADDR, then WE (R61). -/
theorem busWordOf_getLsbD (we : Bool) (a : BusAddr) (d : BusData) (i : Nat) :
    (busWordOf we a d).getLsbD i =
      if i < 32 then d.getLsbD i else if i < 34 then a.getLsbD (i - 32) else (BitVec.ofBool we).getLsbD (i - 34) := by
  have h1 : (busWordOf we a d).getLsbD i =
      if i < 34 then (show BitVec 34 from a ++ d).getLsbD i else (BitVec.ofBool we).getLsbD (i - 34) :=
    BitVec.getLsbD_append
  have h2 : (show BitVec 34 from a ++ d).getLsbD i = if i < 32 then d.getLsbD i else a.getLsbD (i - 32) :=
    BitVec.getLsbD_append
  rw [h1, h2]
  by_cases h : i < 32
  · simp [h, show i < 34 by omega]
  · simp [h]

@[simp] theorem busWordOf_we (we : Bool) (a : BusAddr) (d : BusData) : (busWordOf we a d).getLsbD 34 = we := by
  rw [busWordOf_getLsbD]; cases we <;> rfl

@[simp] theorem busWordOf_addr1 (we : Bool) (a : BusAddr) (d : BusData) :
    (busWordOf we a d).getLsbD 33 = a.getLsbD 1 := by
  rw [busWordOf_getLsbD]; rfl

@[simp] theorem busWordOf_addr0 (we : Bool) (a : BusAddr) (d : BusData) :
    (busWordOf we a d).getLsbD 32 = a.getLsbD 0 := by
  rw [busWordOf_getLsbD]; rfl

@[simp] theorem busWordOf_data (we : Bool) (a : BusAddr) (d : BusData) : (busWordOf we a d).extractLsb' 0 32 = d := by
  apply BitVec.eq_of_getLsbD_eq
  intro i hi
  rw [BitVec.getLsbD_extractLsb', busWordOf_getLsbD]
  simp [hi]

/-- The command of a cycle with a transaction. -/
theorem Pins.command_some {p : Pins} (h : p.busValid = true) :
    p.command = some (decodeBus (busWordOf p.busWe p.busAddr p.busWdata)) := by
  simp [Pins.command, Pins.busWord, h]

namespace Machine

/-- A transaction's own effect: its register read or written (R41, R100). -/
theorem exec_transaction (p : Pins) (s : State) :
    exec (decodeBus (busWordOf p.busWe p.busAddr p.busWdata)) s = .next
      (if p.busWe then hostWrite s (.ofAddr p.busAddr) p.busWdata else hostRead s (.ofAddr p.busAddr)) := by
  rw [exec_decodeBus]
  simp only [busWordOf_we, busWordOf_addr1, busWordOf_addr0, busWordOf_data]
  rfl

/-- The read data of a cycle (R100). -/
def cycleRdata (p : Pins) (s : State) : BusData :=
  if p.busValid && !p.busWe then readRegister s (.ofAddr p.busAddr) else 0

/-- The state after the port event (R48). -/
def afterEvent (p : Pins) (s : State) : State :=
  if p.rst then resetElements s else if p.tuEn then engineStep s else s

/-- The state after the host's write, if the cycle has one that is not dropped (R48, R171). -/
def afterWrite (p : Pins) (s : State) : State :=
  if p.busValid && p.busWe && !p.rst then writeRegister s (.ofAddr p.busAddr) p.busWdata else s

/-- The state a cycle leaves. -/
def cycleState (p : Pins) (s : State) : State := (afterWrite p (afterEvent p s)).setRdata (cycleRdata p s)

theorem readData_eq (p : Pins) (s : State) : readData s p.command = .next (cycleRdata p s) := by
  cases hv : p.busValid with
  | false => rw [Pins.command_none hv]; simp [readData, cycleRdata, hv]
  | true =>
    rw [Pins.command_some hv]
    simp only [readData, exec_transaction, andThen, cycleRdata, hv]
    cases p.busWe <;> simp [hostRead, hostWrite]

theorem exec_event (p : Pins) (s : State) : exec p.event s = .next (afterEvent p s) := by
  rw [Pins.event_eq, afterEvent]
  cases p.rst <;> cases p.tuEn <;> rfl

/-- A transaction's effect on everything but `rdata` is its write. -/
theorem runCommand_eq (p : Pins) (s : State) :
    ∃ v, runCommand p s = .next ((afterWrite p s).setRdata v) := by
  unfold runCommand afterWrite
  cases p.rst with
  | true => exact ⟨s.rdata, by simp [State.setRdata]⟩
  | false =>
    cases hv : p.busValid with
    | false => exact ⟨s.rdata, by simp [Pins.command_none hv, State.setRdata]⟩
    | true =>
      simp only [Pins.command_some hv, exec_transaction]
      cases p.busWe
      · exact ⟨readRegister s (.ofAddr p.busAddr), by simp [hostRead]⟩
      · exact ⟨0, by simp [hostWrite]⟩

/-- One equation for a cycle: refused before the first RESET, else this state. -/
theorem cycle_eq (p : Pins) (s : State) :
    cycle p s = if p.rst = false ∧ s.resetSeen = false then .refused .beforeFirstReset else .next (cycleState p s) := by
  unfold cycle
  by_cases h : p.rst = false ∧ s.resetSeen = false
  · simp [precedesFirstReset, h.1, h.2]
  · rw [if_neg h, if_neg (by simpa [precedesFirstReset] using h)]
    obtain ⟨v, hv⟩ := runCommand_eq p (afterEvent p s)
    simp [readData_eq, exec_event, hv, andThen, cycleState, State.setRdata]

/-- One equation for the observations of a cycle: refused exactly where the cycle is, else these (R9). -/
theorem observe_eq (p : Pins) (s : State) :
    observe p s =
      if p.rst = false ∧ s.resetSeen = false then .refused .beforeFirstReset
      else .next ⟨out s 0, out s 1, out s 2, cycleRdata p s⟩ := by
  simp [observe, precedesFirstReset, readData_eq, andThen]

theorem cycle_next {p : Pins} {s : State} (h : s.resetSeen = true) : cycle p s = .next (cycleState p s) := by
  simp [cycle_eq, h]

theorem cycle_next_of_rst {p : Pins} {s : State} (h : p.rst = true) : cycle p s = .next (cycleState p s) := by
  simp [cycle_eq, h]

/-- If a cycle answers a next state, it is this one, and the run had begun or begins with it (R38). -/
theorem cycle_inv {p : Pins} {s s' : State} (h : cycle p s = .next s') :
    s' = cycleState p s ∧ (s.resetSeen = true ∨ p.rst = true) := by
  rw [cycle_eq] at h
  split at h
  · cases h
  · rename_i hn
    cases h
    refine ⟨rfl, ?_⟩
    cases h1 : s.resetSeen <;> cases h2 : p.rst <;> simp_all

/-! ### The parts of the state a cycle leaves -/

theorem afterWrite_frame (p : Pins) (s : State) :
    afterWrite p s = { s with lv := (afterWrite p s).lv, freq := (afterWrite p s).freq } := by
  unfold afterWrite
  split
  · exact writeRegister_frame _ _ _
  · rfl

/-- The engine's state, and the model's own fields, after a cycle are those after its port event: no host command
reaches them. -/
theorem cycleState_eq (p : Pins) (s : State) :
    cycleState p s = { afterEvent p s with
      lv := (cycleState p s).lv, freq := (cycleState p s).freq, rdata := cycleRdata p s } := by
  rw [cycleState, afterWrite_frame]
  rfl

theorem cycleState_engine (p : Pins) (s : State) :
    (cycleState p s).snapLv = (afterEvent p s).snapLv ∧ (cycleState p s).snapTick = (afterEvent p s).snapTick ∧
      (cycleState p s).ch = (afterEvent p s).ch ∧ (cycleState p s).pos = (afterEvent p s).pos ∧
      (cycleState p s).sub = (afterEvent p s).sub ∧ (cycleState p s).resetSeen = (afterEvent p s).resetSeen ∧
      (cycleState p s).inputs = (afterEvent p s).inputs ∧ (cycleState p s).cycle = (afterEvent p s).cycle := by
  rw [cycleState_eq]
  simp

theorem afterEvent_own (p : Pins) (s : State) :
    (afterEvent p s).inputs = s.inputs ∧ (afterEvent p s).cycle = s.cycle ∧
      (afterEvent p s).resetSeen = (p.rst || s.resetSeen) := by
  unfold afterEvent
  cases p.rst
  · cases p.tuEn
    · simp
    · simp only [Bool.false_eq_true, if_false, if_true]
      rw [engineStep_frame]
      simp
  · simp

/-- LV after a cycle: the reset values, the written triple, or as before. -/
theorem cycleState_lv (p : Pins) (s : State) :
    (cycleState p s).lv =
      if p.rst then ⟨15, 15, 15⟩
      else if p.busValid && p.busWe && decide (p.busAddr = 0) then levelsOfData p.busWdata else s.lv := by
  have ha : (Reg.ofAddr p.busAddr = .levels) = (p.busAddr = 0) := by
    generalize p.busAddr = a; revert a; decide
  have he : (engineStep s).lv = s.lv := by rw [engineStep_frame]
  simp only [cycleState, afterWrite, afterEvent, State.setRdata_lv]
  cases p.rst <;> cases p.busValid <;> cases p.busWe <;> cases p.tuEn <;> simp [writeRegister_lv, ha, he]

/-- FREQ after a cycle: the reset value, the written level's frequency, or as before. -/
theorem cycleState_freq (p : Pins) (s : State) :
    (cycleState p s).freq =
      if p.rst then 100
      else if p.busValid && p.busWe && decide (p.busAddr = 2) then levelToFrequencySat p.busWdata else s.freq := by
  have ha : (Reg.ofAddr p.busAddr = .freqlv) = (p.busAddr = 2) := by
    generalize p.busAddr = a; revert a; decide
  have he : (engineStep s).freq = s.freq := by rw [engineStep_frame]
  simp only [cycleState, afterWrite, afterEvent, State.setRdata_freq]
  cases p.rst <;> cases p.busValid <;> cases p.busWe <;> cases p.tuEn <;> simp [writeRegister_freq, ha, he]

/-! ### Steps and runs -/

/-- The engine step does not look at the input signals. -/
theorem engineStep_inputs (s : State) (ps : List Pins) (n : Nat) :
    engineStep { s with inputs := ps, cycle := n } = { engineStep s with inputs := ps, cycle := n } := by
  change (if tickEnds s then _ else _) = _
  unfold engineStep
  split
  · change (if slotEnds s then _ else _) = _
    split
    · change (if channelsEnd s then _ else _) = _
      split <;> rfl
    · rfl
  · rfl

theorem afterEvent_inputs (p : Pins) (s : State) (ps : List Pins) (n : Nat) :
    afterEvent p { s with inputs := ps, cycle := n } = { afterEvent p s with inputs := ps, cycle := n } := by
  unfold afterEvent
  rw [engineStep_inputs]
  cases p.rst <;> cases p.tuEn <;> rfl

/-- A cycle does not look at the signals of other cycles. -/
theorem cycleState_inputs (p : Pins) (s : State) (ps : List Pins) (n : Nat) :
    cycleState p { s with inputs := ps, cycle := n } = { cycleState p s with inputs := ps, cycle := n } := by
  have hr : cycleRdata p { s with inputs := ps, cycle := n } = cycleRdata p s := by
    have h := readRegister_congr (s := { s with inputs := ps, cycle := n }) (t := s) rfl rfl (.ofAddr p.busAddr)
    simp only [cycleRdata, h]
  rw [cycleState, cycleState, afterEvent_inputs, hr]
  unfold afterWrite
  cases p.busValid <;> cases p.busWe <;> cases p.rst <;> try rfl
  all_goals cases Reg.ofAddr p.busAddr <;> rfl

theorem cycleState_withProgram (p : Pins) (s : State) (ps : List Pins) :
    cycleState p (s.withProgram ps) = (cycleState p s).withProgram ps := by
  have hk : (cycleState p s).cycle = s.cycle := by
    rw [(cycleState_engine p s).2.2.2.2.2.2.2, (afterEvent_own p s).2.1]
  refine (cycleState_inputs p s ps s.cycle).trans ?_
  change _ = ({ cycleState p s with inputs := ps, cycle := (cycleState p s).cycle } : State)
  rw [hk]

theorem step_cons {s : State} {p : Pins} {rest : List Pins} (h : s.inputs = p :: rest) :
    step s = cycle p { s with inputs := rest, cycle := s.cycle + 1 } := by
  simp [step, State.nextPins, State.takeInput, h]

theorem runOn_nil (s : State) : runOn [] s = .next (s.withProgram []) := rfl

/-- A run over one cycle and more: the cycle, then the run over the rest. -/
theorem runOn_cons {p : Pins} {ps : List Pins} {s : State} (h : s.resetSeen = true ∨ p.rst = true) :
    runOn (p :: ps) s = runOn ps (cycleState p { s with cycle := s.cycle + 1 }) := by
  have hs : core.step (s.withProgram (p :: ps)) =
      .next ((cycleState p { s with cycle := s.cycle + 1 }).withProgram ps) := by
    rw [← cycleState_withProgram]
    rcases h with h | h
    · exact cycle_next h
    · exact cycle_next_of_rst h
  simp only [runOn, List.length_cons, Host.Core.run, hs]
  rfl

end Machine

end Sys2Proof
end

