-- ==== Sys2Proof/Laws/Engine.lean ====
section
/-! SUPPORT. The engine step in terms of the frame position: it advances by one, or ends the frame; and the engine step
keeps the legal states. -/

namespace Sys2Proof.Machine

theorem State.framePosition_eq (s : State) :
    s.framePosition = 16 * s.snapTick.toNat * s.ch.toNat + s.snapTick.toNat * s.pos.toNat + s.sub.toNat := rfl

theorem State.frameLength_eq (s : State) : s.frameLength = 48 * s.snapTick.toNat := rfl

theorem State.WellFormed.ch_lt {s : State} (h : s.WellFormed) : s.ch.toNat < 3 := h.channel

theorem toNat_inc {n : Nat} (x : BitVec n) (h : x.toNat + 1 < 2 ^ n) : (x + 1).toNat = x.toNat + 1 := by
  have h1 : (1 : BitVec n).toNat = 1 := Nat.mod_eq_of_lt (show 1 < 2 ^ n by omega)
  rw [BitVec.toNat_add, h1]
  exact Nat.mod_eq_of_lt h

/-- A legal state's position lies in its frame (R175: "0 ≤ k ≤ 48·T − 1"). -/
theorem State.WellFormed.framePosition_lt {s : State} (h : s.WellFormed) : s.framePosition < s.frameLength := by
  have h1 := h.ch_lt
  have h2 := h.subBelowTick
  have h3 := s.pos.isLt
  rw [State.framePosition_eq, State.frameLength_eq]
  have h4 : 16 * s.snapTick.toNat * s.ch.toNat ≤ 16 * s.snapTick.toNat * 2 := Nat.mul_le_mul_left _ (by omega)
  have h5 : s.snapTick.toNat * s.pos.toNat ≤ s.snapTick.toNat * 15 := Nat.mul_le_mul_left _ (by omega)
  omega

/-- One time unit of a legal state: the next position of the frame, or the next frame with its snapshot (R122, R123). -/
theorem State.WellFormed.engineStep {s : State} (h : s.WellFormed) :
    (s.framePosition + 1 < s.frameLength ∧ (engineStep s).framePosition = s.framePosition + 1 ∧
        (engineStep s).snapLv = s.snapLv ∧ (engineStep s).snapTick = s.snapTick ∧
        ¬(tickEnds s = true ∧ slotEnds s = true ∧ channelsEnd s = true)) ∨
      (s.framePosition + 1 = s.frameLength ∧ (tickEnds s = true ∧ slotEnds s = true ∧ channelsEnd s = true) ∧
        engineStep s = (s.setSnapshot s.lv (tickDuration s.freq)).setPlace 0 0 0) := by
  have hc := h.ch_lt
  have hs := h.subBelowTick
  have hp := s.pos.isLt
  have hT := s.snapTick.isLt
  rw [tickEnds_iff, slotEnds_iff, channelsEnd_iff]
  have hlt := h.framePosition_lt
  rcases engineStep_cases s with ⟨h1, he⟩ | ⟨h1, h2, he⟩ | ⟨h1, h2, h3, he⟩ | ⟨h1, h2, h3, he⟩
  · left
    have hsub := toNat_inc s.sub (by omega)
    have hpos : (Machine.engineStep s).framePosition = s.framePosition + 1 := by
      rw [he, State.framePosition_eq, State.framePosition_eq]
      simp only [State.setPlace_snapTick, State.setPlace_ch, State.setPlace_pos, State.setPlace_sub, hsub]
      omega
    refine ⟨?_, hpos, by simp [he], by simp [he], by omega⟩
    have h5 : 16 * s.snapTick.toNat * s.ch.toNat ≤ 16 * s.snapTick.toNat * 2 := Nat.mul_le_mul_left _ (by omega)
    have h6 : s.snapTick.toNat * s.pos.toNat ≤ s.snapTick.toNat * 15 := Nat.mul_le_mul_left _ (by omega)
    rw [State.framePosition_eq, State.frameLength_eq]
    omega
  · left
    have hpo := toNat_inc s.pos (by omega)
    have hpos : (Machine.engineStep s).framePosition = s.framePosition + 1 := by
      rw [he, State.framePosition_eq, State.framePosition_eq]
      simp only [State.setPlace_snapTick, State.setPlace_ch, State.setPlace_pos, State.setPlace_sub, hpo]
      have z12 : (0 : BitVec 12).toNat = 0 := rfl
      simp only [z12, Nat.mul_add]
      omega
    refine ⟨?_, hpos, by simp [he], by simp [he], by omega⟩
    have h5 : 16 * s.snapTick.toNat * s.ch.toNat ≤ 16 * s.snapTick.toNat * 2 := Nat.mul_le_mul_left _ (by omega)
    have h6 : s.snapTick.toNat * s.pos.toNat ≤ s.snapTick.toNat * 14 := Nat.mul_le_mul_left _ (by omega)
    rw [State.framePosition_eq, State.frameLength_eq]
    omega
  · left
    have hch := toNat_inc s.ch (by omega)
    have hp15 : s.pos.toNat = 15 := by omega
    have hpos : (Machine.engineStep s).framePosition = s.framePosition + 1 := by
      rw [he, State.framePosition_eq, State.framePosition_eq, hp15]
      simp only [State.setPlace_snapTick, State.setPlace_ch, State.setPlace_pos, State.setPlace_sub, hch]
      have z12 : (0 : BitVec 12).toNat = 0 := rfl
      have z4 : (0 : BitVec 4).toNat = 0 := rfl
      simp only [z12, z4, Nat.mul_add]
      omega
    refine ⟨?_, hpos, by simp [he], by simp [he], by omega⟩
    have h5 : 16 * s.snapTick.toNat * s.ch.toNat ≤ 16 * s.snapTick.toNat * 1 := Nat.mul_le_mul_left _ (by omega)
    rw [State.framePosition_eq, State.frameLength_eq, hp15]
    omega
  · right
    have hp15 : s.pos.toNat = 15 := by omega
    have hc2 : s.ch.toNat = 2 := by omega
    refine ⟨?_, by omega, he⟩
    rw [State.framePosition_eq, State.frameLength_eq, hp15, hc2]
    omega

/-- The engine step keeps the legal states (R33). -/
theorem State.WellFormed.engineStep_wf {s : State} (h : s.WellFormed) : (Machine.engineStep s).WellFormed := by
  have hs := h.subBelowTick
  have hT := s.snapTick.isLt
  have ht := h.gridTick.bounds
  rcases engineStep_cases s with ⟨h1, he⟩ | ⟨h1, h2, he⟩ | ⟨h1, h2, h3, he⟩ | ⟨h1, h2, h3, he⟩ <;> rw [he]
  · exact ⟨h.channel, (toNat_inc s.sub (by omega)).symm ▸ h1, h.gridTick, h.gridFreq⟩
  · exact ⟨h.channel, by simp; omega, h.gridTick, h.gridFreq⟩
  · have hch : (s.ch + 1).toNat < 3 := by rw [toNat_inc s.ch (by omega)]; omega
    exact ⟨hch, by simp; omega, h.gridTick, h.gridFreq⟩
  · have hn := h.gridFreq.isGridTick
    have hb := hn.bounds
    exact ⟨by simp [Config.nch], by simp; omega, hn, h.gridFreq⟩

end Sys2Proof.Machine
end

