-- ==== Sys2Proof/Laws/PerInstr.lean ====
section
/-! SUPPORT. Per instruction: its encoded word is a word of its row of the opcode map (R66, R67), whatever its operand
is, and no wider than its format (R60). -/

namespace Sys2Proof.Laws.Opcode

/-- The opcode bits of a bus word are WE and ADDR (R66). -/
theorem opcode_bits (we : Bool) (a : BusAddr) (d : BusData) :
    (busWordOf we a d).toNat &&& 0x700000000 = (busWordOf we a 0).toNat := by
  have h : busWordOf we a d &&& 0x700000000#35 = busWordOf we a 0 := by
    apply BitVec.eq_of_getLsbD_eq
    intro i hi
    have hm : ∀ i, i < 35 → (0x700000000#35).getLsbD i = decide (32 ≤ i) := by decide
    rw [BitVec.getLsbD_and, hm i hi, busWordOf_getLsbD, busWordOf_getLsbD]
    by_cases h32 : i < 32
    · simp [h32]
    · simp [h32]; omega
  have := congrArg BitVec.toNat h
  rwa [BitVec.toNat_and] at this

/-- The instruction's word fits its format and matches its row. -/
def Statement (i : Instr) : Prop :=
  (encode i).format.fits (encode i).toNat = true ∧
    ∃ row ∈ opcodeTable, row.mnemonic = i.mnemonic ∧ row.matchesWord (encode i) = true

/-- A bus instruction's word matches the row whose value is its opcode. -/
theorem bus_statement {i : Instr} {we : Bool} {a : BusAddr} {d : BusData} (hi : encode i = .bus (busWordOf we a d))
    (row : OpcodeRow) (hr : row ∈ opcodeTable) (hn : row.mnemonic = i.mnemonic) (hf : row.format = .bus)
    (hm : row.mask = 0x700000000) (hv : (busWordOf we a 0).toNat = row.value) : Statement i := by
  refine ⟨?_, row, hr, hn, ?_⟩
  · rw [hi]
    exact decide_eq_true (busWordOf we a d).isLt
  · simp only [OpcodeRow.matchesWord, hi, RawWord.format, RawWord.toNat, hf, hm, opcode_bits, hv, decide_true,
      Bool.and_self]

theorem rdLevels (data : BusData) : Statement (.rdLevels data) :=
  bus_statement rfl ⟨"RD_LEVELS", .bus, 0x000000000, 0x700000000⟩ (by decide) rfl rfl rfl (by decide)

theorem rdFreq (data : BusData) : Statement (.rdFreq data) :=
  bus_statement rfl ⟨"RD_FREQ", .bus, 0x100000000, 0x700000000⟩ (by decide) rfl rfl rfl (by decide)

theorem rdFreqlv (data : BusData) : Statement (.rdFreqlv data) :=
  bus_statement rfl ⟨"RD_FREQLV", .bus, 0x200000000, 0x700000000⟩ (by decide) rfl rfl rfl (by decide)

theorem rdTick (data : BusData) : Statement (.rdTick data) :=
  bus_statement rfl ⟨"RD_TICK", .bus, 0x300000000, 0x700000000⟩ (by decide) rfl rfl rfl (by decide)

theorem wrLevels (data : BusData) : Statement (.wrLevels data) :=
  bus_statement rfl ⟨"WR_LEVELS", .bus, 0x400000000, 0x700000000⟩ (by decide) rfl rfl rfl (by decide)

theorem wrFreq (data : BusData) : Statement (.wrFreq data) :=
  bus_statement rfl ⟨"WR_FREQ", .bus, 0x500000000, 0x700000000⟩ (by decide) rfl rfl rfl (by decide)

theorem wrFreqlv (data : BusData) : Statement (.wrFreqlv data) :=
  bus_statement rfl ⟨"WR_FREQLV", .bus, 0x600000000, 0x700000000⟩ (by decide) rfl rfl rfl (by decide)

theorem wrTick (data : BusData) : Statement (.wrTick data) :=
  bus_statement rfl ⟨"WR_TICK", .bus, 0x700000000, 0x700000000⟩ (by decide) rfl rfl rfl (by decide)

theorem idle : Statement .idle := ⟨by decide, ⟨"IDLE", .port, 0b00, 0b11⟩, by decide, rfl, by decide⟩

theorem tuStep : Statement .tuStep := ⟨by decide, ⟨"TU_STEP", .port, 0b01, 0b11⟩, by decide, rfl, by decide⟩

theorem reset (t : Bool) : Statement (.reset t) := by
  cases t <;> exact ⟨by decide, ⟨"RESET", .port, 0b10, 0b10⟩, by decide, rfl, by decide⟩

end Sys2Proof.Laws.Opcode
end

