-- ==== Sys2Proof/Tests/Slice0.lean ====
section
/-! SUPPORT. Tests: the spec's own vectors (spec/95_test_vectors.md), each a theorem about one step, and for each
statement with hypotheses a witness that meets them. -/

namespace Sys2Proof.Tests

open Sys2Proof.Machine

/-- A field of the next state, if there is one. -/
def result {α : Type} (o : Host.Outcome State Fault Refusal) (f : State → α) : Option α :=
  match o with
  | .next s => some (f s)
  | _ => none

/-- The reset state at another place of the frame. -/
def place (c : BitVec 2) (p : BitVec 4) (u : BitVec 12) : State := State.reset.setPlace c p u

/-- The three output lines. -/
def outs (s : State) : Bool × Bool × Bool := (out s 0, out s 1, out s 2)

def idlePins : Pins := Pins.ofWords 0b00 none
def tuPins : Pins := Pins.ofWords 0b01 none
def resetPins : Pins := Pins.ofWords 0b10 none

/-! ### Well-formedness: each check refuses an ill-formed term -/

theorem test_bus_word_too_wide : Format.bus.fits 0x800000000 = false := by decide
theorem test_port_code_too_wide : Format.port.fits 4 = false := by decide
theorem test_imm_too_wide : (Asm.Line.cycle none (some (.wr .levels 0x100000000))).wf = false := by decide
theorem test_setlv_level_16 : (Asm.Line.setlv 0 16 0).wf = false := by decide
theorem test_tu_zero : (Asm.Line.tuTimes 0).wf = false := by decide
theorem test_idle_zero : (Asm.Line.idleTimes 0).wf = false := by decide
theorem test_setf_too_wide : (Asm.Line.setf 0x100000000).wf = false := by decide
theorem test_setlv_15 : (Asm.Line.setlv 15 15 15).wf = true := by decide

/-! ### Decoding: words written out from R61, R62, R66, R67 -/

theorem test_decode_rdLevels : decodeBus 0b00000010010001101000101011001111000 = .rdLevels 0x12345678 := by decide
theorem test_decode_rdFreq : decodeBus 0b00100000000000000000000000000000000 = .rdFreq 0 := by decide
theorem test_decode_rdFreqlv : decodeBus 0b01000000000000000000000000000000001 = .rdFreqlv 1 := by decide
theorem test_decode_rdTick : decodeBus 0b01110000000000000000000000000000000 = .rdTick 0x80000000 := by decide
theorem test_decode_wrLevels : decodeBus 0b10000000000000000000000100011110000 = .wrLevels 0x8F0 := by decide
theorem test_decode_wrFreq : decodeBus 0b10100000000000000000000000000110111 = .wrFreq 0x37 := by decide
theorem test_decode_wrFreqlv : decodeBus 0b11000000000000000000000000000001111 = .wrFreqlv 15 := by decide
theorem test_decode_wrTick : decodeBus 0b11100000000000000000000000000000101 = .wrTick 5 := by decide
theorem test_decode_idle : decodePort 0b00 = .idle := by decide
theorem test_decode_tuStep : decodePort 0b01 = .tuStep := by decide
theorem test_decode_reset : decodePort 0b10 = .reset false ∧ decodePort 0b11 = .reset true := by decide
theorem test_reject_by_name :
    decodeNat .bus 0x800000000 = .error .notABusWord ∧ decodeNat .port 4 = .error .notAPortCode := ⟨rfl, rfl⟩

/-! ### The host commands (vectors H1 to H16) -/

theorem test_H1 : result (exec (.rdLevels 0) State.reset) (·.rdata) = some 0x00000FFF := by decide
theorem test_H2 : result (exec (.rdFreq 0) State.reset) (·.rdata) = some 0x00000064 := by decide
theorem test_H3 : result (exec (.rdFreqlv 0) State.reset) (·.rdata) = some 0 := by decide
theorem test_H4 : result (exec (.rdTick 0) State.reset) (·.rdata) = some 0x000000D0 := by decide
theorem test_H5 : result (exec (.wrLevels 0x8F0) State.reset) (·.lv) = some ⟨0, 15, 8⟩ := by decide
theorem test_H6 :
    result (exec (.wrLevels 0xFFFFF123) State.reset) (fun s => (s.lv, readRegister s .levels)) =
      some (⟨3, 2, 1⟩, 0x00000123) := by decide
theorem test_H7 : result (exec (.wrLevels 0xFFF) State.reset) id = some State.reset := by decide
theorem test_H8 : result (exec (.wrFreq 0x37) State.reset) id = some State.reset := by decide
theorem test_H10 :
    result (exec (.wrFreqlv 0) State.reset) (fun s => (s.freq, readRegister s .tick, s.snapTick)) =
      some (10, 2083, 208) := by decide
theorem test_H13 : result (exec (.wrFreqlv 0xFFFFFFFF) State.reset) (·.freq) = some 160 := by decide
theorem test_H14 : result (exec (.wrTick 5) State.reset) id = some State.reset := by decide
theorem test_H16 :
    result (cycle idlePins { State.reset with rdata := 7 }) id = some State.reset := by decide

/-! ### The divider -/

theorem test_divider_rows :
    [10, 20, 50, 100, 120, 150, 160, 37].map tickDuration = [2083, 1041, 416, 208, 173, 138, 130, 563] := by decide
theorem test_saturation :
    [0, 1, 9, 14, 15, 16, 20, 0xFFFFFFFF].map levelToFrequencySat = [10, 20, 100, 150, 160, 160, 160, 160] := by decide

/-! ### The engine (vectors E1 to E8) and the output lines (O1 to O6) -/

theorem test_E1 : result (exec .tuStep (place 0 0 0)) id = some (place 0 0 1) := by decide
theorem test_E3 : result (exec .tuStep (place 0 0 207)) id = some (place 0 1 0) := by decide
theorem test_E4 :
    (outs (place 0 15 207), result (exec .tuStep (place 0 15 207)) id) =
      ((false, false, false), some (place 1 0 0)) := by decide
theorem test_E5 : result (exec .tuStep (place 1 15 207)) (fun s => (s, outs s)) =
    some (place 2 0 0, (false, false, true)) := by decide
theorem test_E6 :
    result (exec .tuStep ((place 2 15 207).setLv ⟨0, 15, 8⟩)) id =
      some ((State.reset.setLv ⟨0, 15, 8⟩).setSnapshot ⟨0, 15, 8⟩ 208) := by decide
theorem test_E7 :
    result (exec .tuStep (((place 2 15 129).setFreq 10).setSnapshot ⟨15, 15, 15⟩ 130)) (fun s => (s.snapTick, outs s)) =
      some (2083, (true, false, false)) := by decide
theorem test_E9 :
    result (exec .idle ((place 0 3 10).setSnapshot ⟨8, 15, 15⟩ 208)) (fun s => (s.pos, s.sub, outs s)) =
      some (3, 10, (true, false, false)) := by decide
theorem test_O1 : outs (place 0 14 0) = (true, false, false) := by decide
theorem test_O2 : outs (place 0 15 0) = (false, false, false) := by decide
theorem test_O3_to_O5 :
    outs ((place 0 0 0).setSnapshot ⟨0, 15, 8⟩ 208) = (false, false, false) ∧
      outs ((place 2 7 0).setSnapshot ⟨0, 15, 8⟩ 208) = (false, false, true) ∧
      outs ((place 2 8 0).setSnapshot ⟨0, 15, 8⟩ 208) = (false, false, false) := by decide
theorem test_O6 : outs ((place 1 0 0).setSnapshot ⟨1, 1, 1⟩ 208) = (false, true, false) := by decide

/-! ### RESET and the order within a cycle (vectors X1 to X4, Q6, program P4) -/

theorem test_X2 : result (exec (.reset true) (place 1 7 100)) id = some State.reset := by decide
theorem test_X3 :
    result (cycle (.ofWords 0b10 (some 0x000000000)) (State.reset.setLv ⟨1, 2, 3⟩)) (fun s => (s.rdata, s.lv)) =
      some (0x00000321, ⟨15, 15, 15⟩) := by decide
theorem test_X4 : result (cycle (.ofWords 0b10 (some 0x400000000)) State.reset) (·.lv) = some ⟨15, 15, 15⟩ := by decide
theorem test_Q6 :
    result (cycle (.ofWords 0b01 (some 0x300000000)) State.reset) (fun s => (s.rdata, s.sub)) = some (208, 1) := by decide
theorem test_P4_line_3 :
    result (cycle (.ofWords 0b01 (some 0x400000000)) (place 2 15 207)) (fun s => (s.snapLv, s.lv, outs s)) =
      some (⟨15, 15, 15⟩, ⟨0, 0, 0⟩, (true, false, false)) := by decide

/-! ### A step runs a table word; before the first RESET it is refused -/

theorem test_step_bus_word :
    result (step (State.reset.withFetchWord 40 0x4000008F0)) (·.lv) = some ⟨0, 15, 8⟩ := by decide
theorem test_step_port_word : result (step (State.reset.withFetchWord 8 0b01)) (·.sub) = some 1 := by decide
/-- Program P2, line 1, as a run's first cycle: it is observed, and its read data is 0. -/
theorem test_P2_line_1 : ∃ o, observe resetPins State.powerUp = .next o ∧ o.rdata = 0 := ⟨_, rfl, rfl⟩
theorem test_observe_refused : observe tuPins State.powerUp = .refused .beforeFirstReset := rfl
theorem test_step_refused : step (State.powerUp.withProgram [tuPins]) = .refused .beforeFirstReset := rfl

/-! ### The assembler -/

theorem test_asm_line : Asm.assembleText "TU + WR LEVELS, 0 ; ends the frame" =
    some [Pins.ofWords 0b01 (some 0x400000000)] := by decide
theorem test_asm_pseudo : Asm.assembleText "RESET\nSETLV 1, 2, 3\nRESET + RD 0\nTU 2" =
    some [resetPins, Pins.ofWords 0b00 (some 0x400000321), Pins.ofWords 0b10 (some 0x000000000), tuPins, tuPins] := by
  decide
theorem test_asm_refuses :
    Asm.assembleText "WR FREQ, -1" = none ∧ Asm.assembleText "WR FREQ, 0x100000000" = none ∧
      Asm.assembleText "SETLV 0, 16, 0" = none := by decide

/-! ### Witnesses: for each statement with hypotheses, values that meet them together -/

theorem reset_wellFormed : State.reset.WellFormed := ⟨by decide, by decide, ⟨9, by decide, by decide⟩, by decide⟩

/-- Every place of a frame with the reset tick is legal. -/
theorem place_wellFormed {c : BitVec 2} {p : BitVec 4} {u : BitVec 12} (hc : c.toNat < 3) (hu : u.toNat < 208) :
    (place c p u).WellFormed := ⟨hc, hu, reset_wellFormed.gridTick, reset_wellFormed.gridFreq⟩

theorem reset_atFrameStart : State.reset.AtFrameStart := ⟨rfl, rfl, rfl⟩

/-- `n` cycles of one time unit each. -/
theorem timeUnits_replicate (n : Nat) :
    timeUnits (List.replicate n tuPins) = n ∧ NoReset (List.replicate n tuPins) := by
  have h : tuPins.ticks = true := by decide
  refine ⟨by simp [timeUnits, List.countP_replicate, h], fun p hp => ?_⟩
  rw [(List.mem_replicate.1 hp).2]
  decide

/-- The same with one more such cycle at the end. -/
theorem timeUnits_replicate_append (n : Nat) :
    timeUnits (List.replicate n tuPins ++ [tuPins]) = n + 1 ∧ NoReset (List.replicate n tuPins ++ [tuPins]) := by
  rw [← List.replicate_succ']
  exact timeUnits_replicate (n + 1)

theorem witness_EveryStepKeepsTheInvariant :
    ∃ s', (State.reset.withProgram [tuPins]).Inv ∧ step (State.reset.withProgram [tuPins]) = .next s' :=
  ⟨_, fun _ => ⟨reset_wellFormed.channel, reset_wellFormed.subBelowTick, reset_wellFormed.gridTick,
    reset_wellFormed.gridFreq⟩, rfl⟩

theorem witness_ReachableStatesAreLegal :
    ∃ s', Host.Core.run core 2 (State.reset.withProgram [tuPins, idlePins]) = .next s' := ⟨_, rfl⟩

theorem witness_ResetReturnsEveryElement :
    (∀ q ∈ resetPins :: [resetPins], q.rst = true) ∧
      (State.powerUp.withProgram [Pins.ofWords 0b11 (some 0x300000000)]).inputs =
        Pins.ofWords 0b11 (some 0x300000000) :: [] ∧
      (Pins.ofWords 0b11 (some 0x300000000)).rst = true ∧
      (Pins.ofWords 0b11 (some 0x300000000)).busAddr = Reg.tick.addr := by decide +revert

theorem witness_RunsBeginWithReset :
    State.powerUp.resetSeen = false ∧ (State.powerUp.withProgram [tuPins]).nextPins.rst = false ∧
      (State.powerUp.withProgram [resetPins]).nextPins.rst = true ∧ tuPins.rst = false ∧ resetPins.rst = true ∧
      resetPins.busAddr = Reg.levels.addr := ⟨rfl, rfl, rfl, rfl, rfl, rfl⟩

theorem witness_EveryCycleCompletes : State.reset.resetSeen = true := rfl

theorem witness_StepRunsTheDecodedInstruction :
    State.reset.resetSeen = true ∧ decodeTableWord 40 0x6FFFFFFFF = some (.wrFreqlv 0xFFFFFFFF) ∧
      decodeTableWord 8 0b11 = some (.reset true) := by decide

theorem witness_PseudoInstructionsExpand : (1 : Nat) ≤ 1 ∧ (15 : Nat) ≤ 15 ∧ ¬((16 : Nat) ≤ 15 ∧ 0 ≤ 15 ∧ 0 ≤ 15) := by
  decide

theorem witness_AssembledLinesDecode :
    (Asm.Line.cycle (some .tu) (some (.wr .levels 0xFFFFFFFF))).wf = true ∧ 0xFFFFFFFF < 0x100000000 := by decide

/-- A word of each of the eight opcodes, for the encoding clauses of the host commands' statements. -/
theorem witness_opcodes :
    [0x012345678, 0x100000000, 0x200000000, 0x300000000, 0x4000008F0, 0x500000037, 0x6FFFFFFFF, 0x700000005].map
      (fun w : BusWord => w.extractLsb' 32 3) = [0b000, 0b001, 0b010, 0b011, 0b100, 0b101, 0b110, 0b111] := by decide

theorem witness_RdFreq_RdTick_bounds :
    State.reset.WellFormed ∧ (State.reset.setFreq 10).WellFormed ∧ (State.reset.setFreq 160).WellFormed :=
  ⟨reset_wellFormed,
    ⟨reset_wellFormed.channel, reset_wellFormed.subBelowTick, reset_wellFormed.gridTick, by decide⟩,
    ⟨reset_wellFormed.channel, reset_wellFormed.subBelowTick, reset_wellFormed.gridTick, by decide⟩⟩

/-- A write in mid-frame and one in the frame's last time unit. -/
theorem witness_WrLevelsSetsTheTriple :
    State.reset.resetSeen = true ∧ (place 2 15 207).resetSeen = true ∧
      ¬(tickEnds State.reset = true ∧ slotEnds State.reset = true ∧ channelsEnd State.reset = true) ∧
      (tickEnds (place 2 15 207) = true ∧ slotEnds (place 2 15 207) = true ∧ channelsEnd (place 2 15 207) = true) ∧ (Pins.ofWords 0b01 (some 0x4000008F0)).rst = false ∧
      (Pins.ofWords 0b01 (some 0x4000008F0)).tuEn = true ∧
      (Pins.ofWords 0b01 (some 0x4000008F0)).command = some (.wrLevels 0x8F0) := by decide

theorem witness_AccessSideEffects :
    (∃ t, Instr.rdTick 0 ∈ [Instr.rdLevels 0, .rdFreq 0, .rdFreqlv 0, .rdTick 0] ∧
        exec (.rdTick 0) State.reset = .next t) ∧
      levelsOfData 0xFFF = State.reset.lv := ⟨⟨_, by decide, rfl⟩, by decide⟩

/-- A cycle that writes one register, and one that neither resets nor writes. -/
theorem witness_ReadsSeeTheLastWrite :
    State.reset.resetSeen = true ∧
      NoReset [Pins.ofWords 0b00 (some 0x4000008F0), tuPins] ∧ NoReset [Pins.ofWords 0b00 (some 0x60000000F), tuPins] ∧
      (Pins.ofWords 0b00 (some 0x4000008F0)).command = some (.wrLevels 0x8F0) ∧
      (Pins.ofWords 0b00 (some 0x60000000F)).command = some (.wrFreqlv 15) ∧
      ¬tuPins.WritesLevels ∧ ¬tuPins.WritesFreqlv :=
  ⟨rfl, by unfold NoReset; decide, by unfold NoReset; decide, by decide, by decide,
    (fun ⟨_, h⟩ => by cases h), (fun ⟨_, h⟩ => by cases h)⟩

theorem witness_CycleAppliesItsEffectsInOrder :
    State.reset.resetSeen = true ∧
      (State.reset.withProgram [Pins.ofWords 0b01 (some 0x60000000F)]).inputs =
        Pins.ofWords 0b01 (some 0x60000000F) :: [] ∧
      (Pins.ofWords 0b01 (some 0x60000000F)).busAddr = Reg.freqlv.addr := by decide

theorem witness_EngineStepAndWriteCommute :
    ¬(tickEnds State.reset = true ∧ slotEnds State.reset = true ∧ channelsEnd State.reset = true) ∧
      tickEnds (place 2 15 207) = true ∧ slotEnds (place 2 15 207) = true ∧ channelsEnd (place 2 15 207) = true := by
  decide

/-- Two cycles that differ in DATA[31:12] of WR_LEVELS, two that differ in all `bus_*` signals but `bus_valid`, and two
reset cycles that differ in `tu_en` and in a dropped write. -/
theorem witness_UnusedSignalsHaveNoEffect :
    ((⟨false, true, true, true, 0, 0xFFFFF123⟩ : Pins).busWdata.extractLsb' 0 12 =
        (⟨false, true, true, true, 0, 0x123⟩ : Pins).busWdata.extractLsb' 0 12) ∧
      ((⟨false, false, false, true, 2, 5⟩ : Pins).busValid && !(false && true)) =
        ((⟨false, false, false, false, 1, 9⟩ : Pins).busValid && !(false && false)) ∧
      ((⟨true, true, true, true, 0, 0⟩ : Pins).busValid && !(true && true)) =
        ((⟨true, false, false, false, 0, 0⟩ : Pins).busValid && !(true && false)) := by decide

theorem witness_divider_domain :
    10 ≤ (10#8).toNat ∧ (10#8).toNat ≤ (160#8).toNat ∧ (160#8).toNat ≤ 160 ∧ (3#4).toNat ≤ (15#4).toNat := by decide

theorem witness_TuStepAdvancesOneTimeUnit :
    (∃ t, (place 0 0 207).WellFormed ∧ exec .tuStep (place 0 0 207) = .next t ∧ tickEnds (place 0 0 207) = true) ∧
      ∃ s : State, s.ch = 2 ∧ s.pos = 15 ∧ s.sub = 207 ∧ s.snapTick = 208 ∧ s.lv = ⟨0, 15, 8⟩ ∧ s.freq = 100 :=
  ⟨⟨_, place_wellFormed (by decide) (by decide), rfl, by decide⟩,
    (place 2 15 207).setLv ⟨0, 15, 8⟩, rfl, rfl, rfl, by decide, rfl, rfl⟩

/-- The last time unit of a frame, a reset cycle, and a time unit inside a frame. -/
theorem witness_SnapshotOnlyAtTheFrameEnd :
    (∃ t, (place 2 15 207).WellFormed ∧ step ((place 2 15 207).withProgram [tuPins]) = .next t) ∧
      ((place 2 15 207).withProgram [tuPins]).nextPins.ticks = true ∧
      (place 2 15 207).framePosition + 1 = (place 2 15 207).frameLength ∧
      ((place 2 15 207).withProgram [resetPins]).nextPins.rst = true ∧
      ¬((place 2 15 206).framePosition + 1 = (place 2 15 206).frameLength) :=
  ⟨⟨_, place_wellFormed (by decide) (by decide), rfl⟩, by decide, by decide, by decide, by decide⟩

theorem witness_IdleHoldsTheEngine :
    State.reset.resetSeen = true ∧ NoReset [idlePins, idlePins] ∧ timeUnits [idlePins, idlePins] = 0 ∧
      ∀ p ∈ [idlePins, idlePins], p.busValid = false := 
  ⟨rfl, by unfold NoReset; decide, by decide, by decide⟩

theorem witness_ChannelsInFixedOrder :
    ∃ t, (place 1 15 207).WellFormed ∧ (place 1 15 207).resetSeen = true ∧
      ((place 1 15 207).withProgram [tuPins]).nextPins.rst = false ∧
      step ((place 1 15 207).withProgram [tuPins]) = .next t :=
  ⟨_, place_wellFormed (by decide) (by decide), rfl, rfl, rfl⟩

theorem witness_OutputLinesCompareTheLevel :
    (State.reset.withProgram [Pins.ofWords 0b00 (some 0x400000000)]).nextPins.rst = false ∧
      (State.reset.withProgram [Pins.ofWords 0b00 (some 0x400000000)]).nextPins.tuEn = false ∧
      (∃ t, step (State.reset.withProgram [Pins.ofWords 0b00 (some 0x400000000)]) = .next t) ∧
      ∃ o, observe idlePins State.reset = .next o := ⟨rfl, rfl, ⟨_, rfl⟩, ⟨_, rfl⟩⟩

/-- A read in a run that has begun, and the first RESET cycle of a run. -/
theorem witness_ObservationsOfACycle :
    (∃ t, cycle (Pins.ofWords 0b01 (some 0x300000000)) State.reset = .next t) ∧
      ∃ t, cycle resetPins State.powerUp = .next t := ⟨⟨_, rfl⟩, ⟨_, rfl⟩⟩

theorem witness_AtMostOneLineHigh :
    out State.reset 0 = true ∧ (place 0 15 0).pos = 15 ∧ (State.reset.withProgram [tuPins]).nextPins.rst = false ∧
      ∃ t, step (State.reset.withProgram [tuPins]) = .next t := ⟨by decide, rfl, rfl, ⟨_, rfl⟩⟩

/-- Two states and two cycles that differ in the host registers and in the command. -/
theorem witness_HostRegistersDoNotReachTheFrame :
    (Pins.ofWords 0b01 (some 0x400000000)).rst = false ∧ tuPins.rst = false ∧
      (Pins.ofWords 0b01 (some 0x400000000)).tuEn = tuPins.tuEn ∧
      State.reset.snapLv = ((State.reset.setFreq 10).setLv ⟨1, 2, 3⟩).snapLv ∧
      ¬(tickEnds State.reset = true ∧ slotEnds State.reset = true ∧ channelsEnd State.reset = true) ∧
      (∃ t, cycle (Pins.ofWords 0b01 (some 0x400000000)) State.reset = .next t) ∧
      ∃ t, cycle tuPins ((State.reset.setFreq 10).setLv ⟨1, 2, 3⟩) = .next t :=
  ⟨rfl, rfl, rfl, rfl, by decide, ⟨_, rfl⟩, ⟨_, rfl⟩⟩

/-- The frame's first and last time unit. -/
theorem witness_FrameLaw :
    State.reset.resetSeen = true ∧ State.reset.WellFormed ∧ State.reset.AtFrameStart ∧ NoReset [] ∧
      timeUnits [] < 48 * State.reset.snapTick.toNat ∧
      timeUnits (List.replicate 9983 tuPins) < 48 * State.reset.snapTick.toNat ∧ NoReset (List.replicate 9983 tuPins) :=
  ⟨rfl, reset_wellFormed, reset_atFrameStart, by unfold NoReset; decide, by decide,
    by rw [(timeUnits_replicate 9983).1]; decide, (timeUnits_replicate 9983).2⟩

/-- 48·208 time units; one fewer; and the two slot boundaries. -/
theorem witness_FrameLastsExactly48Ticks :
    tuPins.ticks = true ∧ NoReset (List.replicate 9983 tuPins ++ [tuPins]) ∧
      timeUnits (List.replicate 9983 tuPins ++ [tuPins]) = 48 * State.reset.snapTick.toNat ∧
      timeUnits (List.replicate 9982 tuPins ++ [tuPins]) < 48 * State.reset.snapTick.toNat ∧
      timeUnits (List.replicate 3327 tuPins ++ [tuPins]) = 16 * State.reset.snapTick.toNat * 1 ∧
      timeUnits (List.replicate 6655 tuPins ++ [tuPins]) = 16 * State.reset.snapTick.toNat * 2 := by
  refine ⟨by decide, (timeUnits_replicate_append _).2, ?_, ?_, ?_, ?_⟩ <;> rw [(timeUnits_replicate_append _).1] <;> decide

theorem witness_DutyCycle :
    State.reset.resetSeen = true ∧ State.reset.WellFormed ∧ State.reset.AtFrameStart ∧
      9983 < 48 * State.reset.snapTick.toNat := ⟨rfl, reset_wellFormed, reset_atFrameStart, by decide⟩

theorem witness_FirstFrameAfterReset :
    (∀ r ∈ resetPins :: [], r.rst = true) ∧ NoReset (List.replicate 3119 tuPins) ∧
      timeUnits (List.replicate 3119 tuPins) < 3120 ∧ 3120 ≤ timeUnits (List.replicate 3327 tuPins) ∧
      timeUnits (List.replicate 3327 tuPins) < 3328 := by
  refine ⟨by decide, (timeUnits_replicate _).2, ?_, ?_, ?_⟩ <;> rw [(timeUnits_replicate _).1] <;> decide

/-- A write at position 9983 of 9984 in a cycle without a time unit (vector Q2), and one in the frame's last time unit
(vector Q3). -/
theorem witness_WritesReachTheNextSnapshot :
    (place 2 15 207).resetSeen = true ∧ (place 2 15 207).WellFormed ∧
      NoReset (Pins.ofWords 0b00 (some 0x4000008F0) :: [] ++ [tuPins]) ∧ tuPins.ticks = true ∧
      timeUnits (Pins.ofWords 0b00 (some 0x4000008F0) :: [] ++ [tuPins]) =
        (place 2 15 207).frameLength - (place 2 15 207).framePosition ∧
      (Pins.ofWords 0b01 (some 0x4000008F0)).ticks = true ∧
      (place 2 15 207).framePosition + 1 = (place 2 15 207).frameLength ∧
      timeUnits (List.replicate 9983 tuPins ++ [tuPins]) = 48 * (tickDuration (place 2 15 207).freq).toNat := by
  refine ⟨rfl, place_wellFormed (by decide) (by decide), by unfold NoReset; decide, by decide, by decide, by decide, by decide, ?_⟩
  rw [(timeUnits_replicate_append _).1]
  decide

theorem witness_SnapshotsAreOfOneInstant : ∃ s', runOn [tuPins, idlePins] State.reset = .next s' := ⟨_, rfl⟩

theorem witness_SnapshotBetweenTwoWrites :
    NoReset [Pins.ofWords 0b00 (some 0x4000008F0), tuPins, Pins.ofWords 0b00 (some 0x60000000F)] ∧
      (Pins.ofWords 0b00 (some 0x4000008F0)).tuEn = false ∧ tuPins.tuEn = true ∧ tuPins.busValid = false ∧
      (place 2 15 207).framePosition + 1 = (place 2 15 207).frameLength ∧
      (Pins.ofWords 0b00 (some 0x4000008F0)).command = some (.wrLevels 0x8F0) ∧
      (Pins.ofWords 0b00 (some 0x60000000F)).command = some (.wrFreqlv 15) := by
  refine ⟨?_, by decide, by decide, by decide, by decide, by decide, by decide⟩
  unfold NoReset
  decide

end Sys2Proof.Tests
end

namespace Sys2Proof.Machine

/-- The cycle records its read data (R100, log entry 3): the value read before the edge, whatever the port event and the
host's write do at it. -/
@[simp] theorem cycleState_rdata (p : Pins) (s : State) : (cycleState p s).rdata = cycleRdata p s := rfl

/-- In a run that has begun, or begins with this cycle, the cycle is observed (R9, R38). -/
theorem observe_next {p : Pins} {s : State} (h : s.resetSeen = true ∨ p.rst = true) :
    observe p s = .next ⟨out s 0, out s 1, out s 2, cycleRdata p s⟩ := by
  rw [observe_eq, if_neg]
  rintro ⟨hrst, hseen⟩
  rcases h with h | h
  · rw [hseen] at h; cases h
  · rw [hrst] at h; cases h

/-- Settles O38: a cycle that answers is one that is observed, and both take the read data from the state before the
edge. -/
theorem observationsOfACycle : Obligations.ObservationsOfACycle := by
  intro p s s' h
  obtain ⟨rfl, hbegun⟩ := cycle_inv h
  rw [cycleState_rdata]
  exact observe_next hbegun

end Sys2Proof.Machine

namespace Sys2Proof.Machine

/-! ### The legal states and what keeps them (R33) -/

/-- Whether a state is legal depends on CH, SUB, SNAP_TICK and FREQ alone, and of these a host write sets FREQ alone. -/
theorem State.WellFormed.of_engine_eq {s t : State} (h : s.WellFormed) (hch : t.ch = s.ch) (hsub : t.sub = s.sub)
    (htick : t.snapTick = s.snapTick) (hfreq : OnGrid t.freq) : t.WellFormed :=
  ⟨hch ▸ h.channel, by rw [hsub, htick]; exact h.subBelowTick, htick ▸ h.gridTick, hfreq⟩

/-- Taking the coming cycle's input signals keeps the invariant. -/
theorem State.Inv.takeInput {s : State} (h : s.Inv) : s.takeInput.Inv := fun hseen =>
  have hwf := h hseen
  hwf.of_engine_eq rfl rfl rfl hwf.gridFreq

/-- RESET leaves a legal state, whatever the state before it (R34: level 9 is the default frequency's). -/
theorem resetElements_wellFormed (s : State) : (resetElements s).WellFormed :=
  ⟨by simp [Config.nch], by simp, ⟨9, by decide, rfl⟩, ⟨9, by decide, rfl⟩⟩

/-- A host write keeps the legal states: the only frequency it can store is a saturated level's (R107). -/
theorem State.WellFormed.writeRegister {s : State} (h : s.WellFormed) (r : Reg) (data : BusData) :
    (writeRegister s r data).WellFormed := by
  have hfreq : OnGrid (Machine.writeRegister s r data).freq := by
    rw [writeRegister_freq]
    split
    · exact onGrid_levelToFrequencySat data
    · exact h.gridFreq
  rw [writeRegister_frame]
  exact h.of_engine_eq rfl rfl rfl hfreq

/-- The port event of a cycle leaves a legal state, if the run had begun in one or begins with this cycle. -/
theorem afterEvent_wellFormed {p : Pins} {s : State} (h : p.rst = true ∨ s.WellFormed) :
    (afterEvent p s).WellFormed := by
  unfold afterEvent
  split
  case isTrue => exact resetElements_wellFormed s
  case isFalse hrst =>
    have hs : s.WellFormed := h.resolve_left hrst
    split
    · exact hs.engineStep_wf
    · exact hs

/-- The host's part of a cycle keeps the legal states. -/
theorem State.WellFormed.afterWrite {s : State} (h : s.WellFormed) (p : Pins) : (afterWrite p s).WellFormed := by
  unfold Machine.afterWrite
  split
  · exact h.writeRegister _ _
  · exact h

/-- A cycle leaves a legal state, if the run had begun in one or begins with it: its port event and its write do, and the
read data is no part of a legal state. -/
theorem cycleState_wellFormed {p : Pins} {s : State} (h : p.rst = true ∨ s.WellFormed) :
    (cycleState p s).WellFormed := by
  have hw : (afterWrite p (afterEvent p s)).WellFormed := (afterEvent_wellFormed h).afterWrite p
  exact hw.of_engine_eq rfl rfl rfl hw.gridFreq

/-- A step that answers leaves a legal state: the state before it was legal, or the step is a RESET. -/
theorem State.Inv.wellFormed_of_step {s s' : State} (h : s.Inv) (hstep : step s = .next s') : s'.WellFormed := by
  obtain ⟨rfl, hseen | hrst⟩ := cycle_inv hstep
  · exact cycleState_wellFormed (.inr (h.takeInput hseen))
  · exact cycleState_wellFormed (.inl hrst)

/-- Settles O3: the state after any step that answers is legal, since its port event and then its write
leave legal states. -/
theorem everyStepKeepsTheInvariant : Obligations.EveryStepKeepsTheInvariant := by
  intro s s' hinv hstep _
  exact hinv.wellFormed_of_step hstep

/-! ### Runs -/

/-- Two operations in a row answer a next state only if both do. -/
theorem andThen_eq_next {α β : Type} {o : Host.Outcome α Fault Refusal} {k : α → Host.Outcome β Fault Refusal} {b : β}
    (h : andThen o k = .next b) : ∃ a, o = .next a ∧ k a = .next b := by
  cases o with
  | next a => exact ⟨a, rfl, h⟩
  | fault f => cases h
  | refused r => cases h

/-- A run of one step and more: the step, then the run of the rest from its next state. -/
theorem run_succ (n : Nat) (s : State) :
    Host.Core.run core (n + 1) s = andThen (step s) (Host.Core.run core n) := by
  change _ = andThen (core.step s) _
  simp only [Host.Core.run]
  cases core.step s <;> rfl

/-- What every step keeps holds after any number of steps. -/
theorem run_keeps {P : State → Prop} (hP : ∀ s s', P s → step s = .next s' → P s') :
    ∀ (n : Nat) (s s' : State), P s → Host.Core.run core n s = .next s' → P s' := by
  intro n
  induction n with
  | zero =>
    intro s s' hs hrun
    cases hrun
    exact hs
  | succ n ih =>
    intro s s' hs hrun
    obtain ⟨t, hstep, hrest⟩ := andThen_eq_next (run_succ n s ▸ hrun)
    exact ih t s' (hP s t hs hstep) hrest

/-- Every run over any cycles keeps the legal states (R33). -/
theorem State.WellFormed.run {s s' : State} {n : Nat} (h : s.WellFormed) (hrun : Host.Core.run core n s = .next s') :
    s'.WellFormed :=
  run_keeps (P := State.WellFormed) (fun _ _ hs hstep => State.Inv.wellFormed_of_step (fun _ => hs) hstep) n s s' h hrun

theorem reset_wellFormed : State.reset.WellFormed := resetElements_wellFormed State.reset

theorem reset_withProgram_wellFormed (ps : List Pins) : (State.reset.withProgram ps).WellFormed :=
  reset_wellFormed.of_engine_eq rfl rfl rfl reset_wellFormed.gridFreq

/-! ### The grid by levels -/

/-- Each grid frequency is that of a level (R80, R84): the clamp to [10, 160] does nothing below level 16. -/
theorem levelToFrequency_ofNat {l : Nat} (hl : l < 16) :
    levelToFrequency (BitVec.ofNat 4 l) = BitVec.ofNat 8 (10 * l + 10) := by
  rw [levelToFrequency, BitVec.toNat_ofNat, Nat.mod_eq_of_lt hl, clampedFrequency_eq]
  split
  · rw [show l = 15 by omega]
  · rfl

theorem IsGridTick.exists_level {t : Tick} (h : IsGridTick t) : ∃ l : Level, t = tickDuration (levelToFrequency l) := by
  obtain ⟨l, hl, rfl⟩ := h
  exact ⟨BitVec.ofNat 4 l, by rw [levelToFrequency_ofNat hl]; rfl⟩

theorem OnGrid.exists_level {f : Freq} (h : OnGrid f) : ∃ l : Level, f.toNat = 10 * l.toNat + 10 := by
  obtain ⟨l, hl, hf⟩ := h
  have hlevel : (BitVec.ofNat 4 l).toNat = l := Nat.mod_eq_of_lt hl
  exact ⟨BitVec.ofNat 4 l, by rw [hf, hlevel]; rfl⟩

/-- Settles O4: every run keeps the legal states, and a legal state satisfies the five points of R33. -/
theorem reachableStatesAreLegal : Obligations.ReachableStatesAreLegal := by
  intro ps n s' hrun
  have hwf : s'.WellFormed := (reset_withProgram_wellFormed ps).run hrun
  have hch : s'.ch ≠ 3 := fun h => absurd (h ▸ hwf.channel) (by decide)
  exact ⟨hch, hwf.subBelowTick, hwf.gridTick.exists_level, hwf.gridFreq.exists_level, hwf.gridFreq.bounds.1,
    hwf.gridFreq.bounds.2, hwf.gridTick.bounds⟩

/-! ### The beginning of a run (R38) -/

/-- The read data of a cycle whose address is a register's (R41, R100). -/
theorem cycleRdata_of_busAddr {p : Pins} {r : Reg} (h : p.busAddr = r.addr) (s : State) :
    cycleRdata p s = if p.busValid && !p.busWe then readRegister s r else 0 := by
  rw [cycleRdata, h, Reg.ofAddr_addr]

/-- A reset cycle leaves the reset state and its read data: its write, if any, is dropped (R170, R171). -/
theorem cycleState_of_rst {p : Pins} (h : p.rst = true) (s : State) :
    cycleState p s = (resetElements s).setRdata (cycleRdata p s) := by
  simp [cycleState, afterWrite, afterEvent, h]

/-- Settles O6: by the model's one equation for a cycle and the one for its observations, which refuse together. -/
theorem runsBeginWithReset : Obligations.RunsBeginWithReset := by
  intro s hseen
  refine ⟨fun hrst => ?_, fun p hrst => ?_, fun p r hrst haddr => ?_, fun hrst => ?_⟩
  · exact (cycle_eq s.nextPins s.takeInput).trans (if_pos ⟨hrst, hseen⟩)
  · exact (observe_eq p s).trans (if_pos ⟨hrst, hseen⟩)
  · rw [observe_next (.inr hrst), cycleRdata_of_busAddr haddr]
  · refine ⟨cycleState s.nextPins s.takeInput, cycle_next_of_rst hrst, ?_⟩
    rw [cycleState_of_rst hrst]
    rfl

/-! ### The initial states -/

/-- Settles O1: the reset state is what RESET leaves, element by element. -/
theorem resetHoldsTheSpecValues : Obligations.ResetHoldsTheSpecValues :=
  ⟨resetElements_lv State.reset, resetElements_freq State.reset, resetElements_snapLv State.reset,
    resetElements_snapTick State.reset, resetElements_ch State.reset, resetElements_pos State.reset,
    resetElements_sub State.reset⟩

/-- At power-up the invariant asks nothing: no RESET has happened yet (R38, log entry 4). -/
theorem powerUp_inv : State.powerUp.Inv := fun hseen => absurd hseen Bool.false_ne_true

/-- Settles O2: RESET leaves a legal state, and before the first one the invariant asks nothing. -/
theorem invariantHoldsInitially : Obligations.InvariantHoldsInitially :=
  ⟨reset_wellFormed, fun _ => reset_wellFormed, powerUp_inv⟩

end Sys2Proof.Machine

namespace Sys2Proof.Machine

/-! ### The order of effects in a cycle (R48) -/

/-- Once a RESET has happened, a step is the cycle of the next program line, and takes that line. -/
theorem step_next_cons {s : State} {p : Pins} {rest : List Pins} (hseen : s.resetSeen = true)
    (hin : s.inputs = p :: rest) :
    step s = .next (cycleState p { s with inputs := rest, cycle := s.cycle + 1 }) := by
  rw [step_cons hin]
  exact cycle_next hseen

/-- Settles O25: RESET drops the cycle's write and time unit; any other cycle is the engine step, then the write. The read
data is that of the state before both, which taking the input signals does not touch. -/
theorem cycleAppliesItsEffectsInOrder : Obligations.CycleAppliesItsEffectsInOrder := by
  intro s p rest r hseen hin haddr
  have hread : readRegister { s with inputs := rest, cycle := s.cycle + 1 } r = readRegister s r :=
    readRegister_congr rfl rfl r
  rw [step_next_cons hseen hin]
  cases hrst : p.rst with
  | true =>
    rw [cycleState_of_rst hrst, cycleRdata_of_busAddr haddr, hread]
    rfl
  | false =>
    rw [cycleState, cycleRdata_of_busAddr haddr, hread]
    simp [afterWrite, afterEvent, hrst, haddr, State.setRdata]

/-! ### The engine's own state -/

/-- The coming time unit ends the frame: SUB, POS and CH all carry (R122). -/
def State.FrameEnds (s : State) : Prop := tickEnds s = true ∧ slotEnds s = true ∧ channelsEnd s = true

/-- Two states agree in the elements the engine writes (R48), whatever their host registers hold. -/
structure SameEngine (s t : State) : Prop where
  snapLv : s.snapLv = t.snapLv
  snapTick : s.snapTick = t.snapTick
  ch : s.ch = t.ch
  pos : s.pos = t.pos
  sub : s.sub = t.sub

theorem SameEngine.refl (s : State) : SameEngine s s := ⟨rfl, rfl, rfl, rfl, rfl⟩

theorem SameEngine.symm {s t : State} (h : SameEngine s t) : SameEngine t s :=
  ⟨h.snapLv.symm, h.snapTick.symm, h.ch.symm, h.pos.symm, h.sub.symm⟩

theorem SameEngine.trans {s t u : State} (h : SameEngine s t) (h' : SameEngine t u) : SameEngine s u :=
  ⟨h.snapLv.trans h'.snapLv, h.snapTick.trans h'.snapTick, h.ch.trans h'.ch, h.pos.trans h'.pos, h.sub.trans h'.sub⟩

/-- The three carries depend on the engine's own state alone. -/
theorem SameEngine.carries {s t : State} (h : SameEngine s t) :
    tickEnds s = tickEnds t ∧ slotEnds s = slotEnds t ∧ channelsEnd s = channelsEnd t := by
  simp [tickEnds, slotEnds, channelsEnd, h.snapTick, h.ch, h.pos, h.sub]

theorem SameEngine.frameEnds {s t : State} (h : SameEngine s t) (hend : s.FrameEnds) : t.FrameEnds := by
  obtain ⟨h1, h2, h3⟩ := h.carries
  rwa [State.FrameEnds, ← h1, ← h2, ← h3]

/-- The lines depend on the engine's own state alone (R126). -/
theorem SameEngine.out {s t : State} (h : SameEngine s t) (c : Channel) : out s c = out t c := by
  simp [Machine.out, levelCompare, h.snapLv, h.ch, h.pos]

/-- A host write leaves the engine's own state (R48). -/
theorem sameEngine_writeRegister (s : State) (r : Reg) (data : BusData) : SameEngine s (writeRegister s r data) := by
  rw [writeRegister_frame]
  exact ⟨rfl, rfl, rfl, rfl, rfl⟩

/-- After a cycle the engine's own state is that after the cycle's port event. -/
theorem sameEngine_cycleState (p : Pins) (s : State) : SameEngine (cycleState p s) (afterEvent p s) := by
  obtain ⟨hlv, htick, hch, hpos, hsub, -⟩ := cycleState_engine p s
  exact ⟨hlv, htick, hch, hpos, hsub⟩

/-- A step that ends no frame moves the engine's place and nothing else; where to, the engine's own state decides. -/
theorem engineStep_of_not_frameEnds {s : State} (h : ¬s.FrameEnds) :
    ∃ c p u, ∀ t, SameEngine s t → engineStep t = t.setPlace c p u := by
  cases htick : tickEnds s with
  | false =>
    refine ⟨s.ch, s.pos, s.sub + 1, fun t ht => ?_⟩
    obtain ⟨h1, -, -⟩ := ht.carries
    simp [engineStep, ← h1, htick, ht.ch, ht.pos, ht.sub]
  | true =>
    cases hslot : slotEnds s with
    | false =>
      refine ⟨s.ch, s.pos + 1, 0, fun t ht => ?_⟩
      obtain ⟨h1, h2, -⟩ := ht.carries
      simp [engineStep, ← h1, ← h2, htick, hslot, ht.ch, ht.pos]
    | true =>
      have hch : channelsEnd s = false := Bool.eq_false_iff.2 fun hch => h ⟨htick, hslot, hch⟩
      refine ⟨s.ch + 1, 0, 0, fun t ht => ?_⟩
      obtain ⟨h1, h2, h3⟩ := ht.carries
      simp [engineStep, ← h1, ← h2, ← h3, htick, hslot, hch, ht.ch]

/-- A step that ends the frame takes the snapshot and goes to the first place of the next frame (R122, R123). -/
theorem engineStep_of_frameEnds {s : State} (h : s.FrameEnds) : engineStep s = (snapshot s).setPlace 0 0 0 := by
  obtain ⟨htick, hslot, hch⟩ := h
  simp [engineStep, htick, hslot, hch]

/-- A host write commutes with a move of the engine's place: the two touch different elements. -/
theorem writeRegister_setPlace (s : State) (r : Reg) (data : BusData) (c : BitVec 2) (p : BitVec 4) (u : BitVec 12) :
    writeRegister (s.setPlace c p u) r data = (writeRegister s r data).setPlace c p u := by
  cases r <;> rfl

/-- Settles O26: a step that ends no frame is a move of the engine's place, and so commutes with the write; one that ends
a frame copies LV and FREQ as it finds them. -/
theorem engineStepAndWriteCommute : Obligations.EngineStepAndWriteCommute := by
  intro s r data
  have hsame := sameEngine_writeRegister s r data
  refine ⟨fun hmid => ?_, fun htick hslot hch => ?_⟩
  · obtain ⟨c, p, u, hstep⟩ := engineStep_of_not_frameEnds (s := s) hmid
    rw [hstep s (.refl s), hstep _ hsame, writeRegister_setPlace]
  · have hend : s.FrameEnds := ⟨htick, hslot, hch⟩
    have hafter := sameEngine_writeRegister (engineStep s) r data
    refine ⟨?_, ?_, ?_⟩
    · rw [← hafter.snapLv, engineStep_of_frameEnds hend]
      rfl
    · rw [← hafter.snapTick, engineStep_of_frameEnds hend]
      rfl
    · rw [engineStep_of_frameEnds (hsame.frameEnds hend)]
      rfl

/-- Inside a frame the engine step keeps two states' agreement: it reads the engine's own state alone (R50). -/
theorem SameEngine.engineStep {s t : State} (h : SameEngine s t) (hmid : ¬s.FrameEnds) :
    SameEngine (engineStep s) (engineStep t) := by
  obtain ⟨c, p, u, hstep⟩ := engineStep_of_not_frameEnds hmid
  rw [hstep s (.refl s), hstep t h]
  exact ⟨h.snapLv, h.snapTick, rfl, rfl, rfl⟩

/-- Two cycles without RESET or snapshot that count the same time unit keep the agreement, whatever commands they carry. -/
theorem SameEngine.cycleState {p q : Pins} {s t : State} (h : SameEngine s t) (hp : p.rst = false) (hq : q.rst = false)
    (htu : p.tuEn = q.tuEn) (hmid : p.tuEn = true → ¬s.FrameEnds) :
    SameEngine (cycleState p s) (cycleState q t) := by
  have hevent : SameEngine (afterEvent p s) (afterEvent q t) := by
    cases hcount : p.tuEn with
    | false => simpa [afterEvent, hp, hq, ← htu, hcount] using h
    | true => simpa [afterEvent, hp, hq, ← htu, hcount] using h.engineStep (hmid hcount)
  exact (sameEngine_cycleState p s).trans (hevent.trans (sameEngine_cycleState q t).symm)

/-- Settles O40: the two cycles keep the agreement of the engines, and the lines are read from those. -/
theorem hostRegistersDoNotReachTheFrame : Obligations.HostRegistersDoNotReachTheFrame := by
  intro p q s t s' t' hp hq htu hlv htick hch hpos hsub hmid hs ht
  obtain ⟨rfl, -⟩ := cycle_inv hs
  obtain ⟨rfl, -⟩ := cycle_inv ht
  have h : SameEngine (cycleState p s) (cycleState q t) :=
    SameEngine.cycleState ⟨hlv, htick, hch, hpos, hsub⟩ hp hq htu hmid
  exact ⟨h.snapLv, h.snapTick, h.ch, h.pos, h.sub, h.out⟩

end Sys2Proof.Machine

namespace Sys2Proof.Machine

/-! ### Where a frame's snapshot comes from (R55) -/

/-- The snapshot held in `u` is the levels and the tick current in `t`. -/
def State.HoldsSnapshotOf (u t : State) : Prop := u.snapLv = t.lv ∧ u.snapTick = tickDuration t.freq

/-- The two states hold the same snapshot. -/
def State.KeepsSnapshotOf (u t : State) : Prop := u.snapLv = t.snapLv ∧ u.snapTick = t.snapTick

/-- The engine's own state holds the snapshot. -/
theorem SameEngine.keepsSnapshotOf {u t : State} (h : SameEngine u t) : u.KeepsSnapshotOf t := ⟨h.snapLv, h.snapTick⟩

theorem State.KeepsSnapshotOf.trans {u t s : State} (h : u.KeepsSnapshotOf t) (h' : t.KeepsSnapshotOf s) :
    u.KeepsSnapshotOf s := ⟨h.1.trans h'.1, h.2.trans h'.2⟩

theorem State.KeepsSnapshotOf.holds {u t s : State} (h : u.KeepsSnapshotOf t) (h' : t.HoldsSnapshotOf s) :
    u.HoldsSnapshotOf s := ⟨h.1.trans h'.1, h.2.trans h'.2⟩

/-- One time unit keeps the snapshot, or takes it from the state before it. -/
theorem engineStep_snapshot (s : State) : (engineStep s).KeepsSnapshotOf s ∨ (engineStep s).HoldsSnapshotOf s := by
  by_cases hend : s.FrameEnds
  · rw [engineStep_of_frameEnds hend]
    exact .inr ⟨rfl, rfl⟩
  · obtain ⟨c, p, u, hstep⟩ := engineStep_of_not_frameEnds hend
    rw [hstep s (.refl s)]
    exact .inl ⟨rfl, rfl⟩

/-- One cycle keeps the snapshot, takes it from the state before it, or, by RESET, sets it together with the registers. -/
theorem cycleState_snapshot (p : Pins) (s : State) :
    (cycleState p s).KeepsSnapshotOf s ∨ (cycleState p s).HoldsSnapshotOf s ∨
      (cycleState p s).HoldsSnapshotOf (cycleState p s) := by
  cases hrst : p.rst with
  | true =>
    rw [cycleState_of_rst hrst]
    exact .inr (.inr ⟨rfl, rfl⟩)
  | false =>
    have hkeeps := (sameEngine_cycleState p s).keepsSnapshotOf
    cases htu : p.tuEn with
    | false =>
      have hevent : afterEvent p s = s := by simp [afterEvent, hrst, htu]
      rw [hevent] at hkeeps
      exact .inl hkeeps
    | true =>
      have hevent : afterEvent p s = engineStep s := by simp [afterEvent, hrst, htu]
      rw [hevent] at hkeeps
      rcases engineStep_snapshot s with hkept | htaken
      · exact .inl (hkeeps.trans hkept)
      · exact .inr (.inl (hkeeps.holds htaken))

/-- Once a RESET has happened, it has happened after any further cycle. -/
theorem cycleState_resetSeen (p : Pins) {s : State} (h : s.resetSeen = true) : (cycleState p s).resetSeen = true := by
  obtain ⟨-, -, -, -, -, hseen, -⟩ := cycleState_engine p s
  rw [hseen, (afterEvent_own p s).2.2, h, Bool.or_true]

/-- A run keeps its first state's snapshot, or ends with one taken from a state after some of its cycles. -/
theorem runOn_snapshot (ps : List Pins) : ∀ {s s' : State}, s.resetSeen = true → runOn ps s = .next s' →
    s'.KeepsSnapshotOf s ∨ ∃ before after t, ps = before ++ after ∧ runOn before s = .next t ∧ s'.HoldsSnapshotOf t := by
  induction ps with
  | nil =>
    intro s s' _ hrun
    cases hrun
    exact .inl ⟨rfl, rfl⟩
  | cons p ps ih =>
    intro s s' hseen hrun
    have hcons : ∀ qs, runOn (p :: qs) s = runOn qs (cycleState p { s with cycle := s.cycle + 1 }) :=
      fun _ => runOn_cons (.inl hseen)
    rw [hcons] at hrun
    have hseen' := cycleState_resetSeen p (s := { s with cycle := s.cycle + 1 }) hseen
    rcases ih hseen' hrun with hkept | ⟨before, after, t, rfl, ht, hsnap⟩
    · rcases cycleState_snapshot p { s with cycle := s.cycle + 1 } with hsame | hbefore | hreset
      · exact .inl (hkept.trans hsame)
      · exact .inr ⟨[], p :: ps, s.withProgram [], rfl, runOn_nil s, hkept.holds hbefore⟩
      · exact .inr ⟨[p], ps, _, rfl, (hcons []).trans (runOn_nil _), hkept.holds hreset⟩
    · exact .inr ⟨p :: before, after, t, rfl, (hcons before).trans ht, hsnap⟩

/-- Settles O46: RESET leaves a snapshot of its own registers, and every later one is that of a state of the run. -/
theorem snapshotsAreOfOneInstant : Obligations.SnapshotsAreOfOneInstant := by
  intro ps s' hrun
  rcases runOn_snapshot ps rfl hrun with hkept | hsome
  · exact ⟨[], ps, State.reset.withProgram [], rfl, runOn_nil _, hkept.holds ⟨rfl, rfl⟩⟩
  · exact hsome

end Sys2Proof.Machine

namespace Sys2Proof

/-! ### Cycles that carry one table word (log entry 8) -/

/-- A table word that decodes is a word of the table's format, and decodes as that. -/
theorem decodeTableWord_eq_some {nbits w : Nat} {i : Instr} (h : decodeTableWord nbits w = some i) :
    ∃ r, rawWord (tableFormat nbits) w = .ok r ∧ i = decode r := by
  unfold decodeTableWord decodeNat at h
  cases hr : rawWord (tableFormat nbits) w with
  | ok r =>
    rw [hr] at h
    cases h
    exact ⟨r, rfl, rfl⟩
  | error e =>
    rw [hr] at h
    cases h

/-- The word a number is has the format asked for (R60). -/
theorem format_of_rawWord {f : Format} {w : Nat} {r : RawWord} (h : rawWord f w = .ok r) : r.format = f := by
  cases f with
  | bus =>
    rw [rawWord] at h
    split at h <;> cases h
    rfl
  | port =>
    rw [rawWord] at h
    split at h <;> cases h
    rfl

/-- A bus word is made of its fields (R61). -/
theorem busWordOf_fields (txn : BusWord) :
    busWordOf (txn.getLsbD 34) (txn.extractLsb' 32 2) (txn.extractLsb' 0 32) = txn := by
  apply BitVec.eq_of_getLsbD_eq
  intro i hi
  rw [busWordOf_getLsbD, BitVec.getLsbD_extractLsb', BitVec.getLsbD_extractLsb']
  split
  case isTrue h => simp [h]
  case isFalse h =>
    split
    case isTrue h' => rw [Nat.add_sub_cancel' (Nat.not_lt.1 h), decide_eq_true (by omega), Bool.true_and]
    case isFalse h' =>
      obtain rfl : i = 34 := by omega
      cases txn.getLsbD 34 <;> rfl

/-- The signals made of two words carry that port code (R62). -/
theorem Pins.portCode_ofWords (ev : PortCode) (txn : Option BusWord) : (Pins.ofWords ev txn).portCode = ev := by
  change portCodeOf (ev.getLsbD 1) (ev.getLsbD 0) = ev
  revert ev
  decide

namespace Machine

/-- A port event alone in its cycle: its own effect, and 0 on `bus_rdata` (R100). -/
theorem exec_decodePort (ev : PortCode) (s : State) :
    ∃ t, exec (decodePort ev) s = .next t ∧ cycleState (.ofRaw (.port ev)) s = t.setRdata 0 := by
  refine ⟨afterEvent (.ofRaw (.port ev)) s, ?_, rfl⟩
  rw [← exec_event, Pins.event, Pins.ofRaw, Pins.portCode_ofWords]

/-- A bus command alone in its cycle, which is an IDLE cycle: its own effect. -/
theorem exec_decodeBus_eq_cycleState (txn : BusWord) (s : State) :
    exec (decodeBus txn) s = .next (cycleState (.ofRaw (.bus txn)) s) := by
  have hexec := exec_transaction (.ofRaw (.bus txn)) s
  have hword : busWordOf (Pins.ofRaw (.bus txn)).busWe (Pins.ofRaw (.bus txn)).busAddr
      (Pins.ofRaw (.bus txn)).busWdata = txn := busWordOf_fields txn
  rw [hword] at hexec
  rw [hexec]
  have hidle : afterEvent (.ofRaw (.bus txn)) s = s := rfl
  rw [cycleState, hidle, cycleRdata, afterWrite]
  cases (Pins.ofRaw (.bus txn)).busWe <;> rfl

/-- Settles O11: the coming cycle's signals are those of the one word, and their cycle has its operation's effect. -/
theorem stepRunsTheDecodedInstruction : Obligations.StepRunsTheDecodedInstruction := by
  intro nbits w i s hseen hdec
  obtain ⟨r, hraw, rfl⟩ := decodeTableWord_eq_some hdec
  have hformat := format_of_rawWord hraw
  have hstep : step (s.withFetchWord nbits w) =
      .next (cycleState (.ofRaw r) { s with inputs := s.inputs.tail, cycle := s.cycle + 1 }) := by
    have hfetch : s.withFetchWord nbits w = { s with inputs := Pins.ofRaw r :: s.inputs.tail } := by
      simp [State.withFetchWord, hraw]
    rw [hfetch]
    exact step_next_cons hseen rfl
  rw [hstep]
  cases r with
  | port ev =>
    have hbits : nbits ≤ 8 := by
      by_contra hbits
      simp [tableFormat, hbits, RawWord.format] at hformat
    obtain ⟨t, hexec, hcycle⟩ := exec_decodePort ev { s with inputs := s.inputs.tail, cycle := s.cycle + 1 }
    exact ⟨t, hexec, by rw [hcycle, if_pos hbits]; rfl⟩
  | bus txn =>
    have hbits : ¬nbits ≤ 8 := by
      intro hbits
      simp [tableFormat, hbits, RawWord.format] at hformat
    exact ⟨_, exec_decodeBus_eq_cycleState txn _, by rw [if_neg hbits]⟩

/-! ### The side effects of accesses (R46) -/

/-- Each read command reads one register, in every state. -/
theorem exec_read {data : BusData} {i : Instr}
    (h : i ∈ [Instr.rdLevels data, .rdFreq data, .rdFreqlv data, .rdTick data]) :
    ∃ r, ∀ s, exec i s = .next (hostRead s r) := by
  simp only [List.mem_cons, List.not_mem_nil, or_false] at h
  rcases h with rfl | rfl | rfl | rfl
  · exact ⟨.levels, fun _ => rfl⟩
  · exact ⟨.freq, fun _ => rfl⟩
  · exact ⟨.freqlv, fun _ => rfl⟩
  · exact ⟨.tick, fun _ => rfl⟩

/-- A read records its value and nothing else, so that every register reads as before. -/
theorem readRegister_hostRead (s : State) (r q : Reg) : readRegister (hostRead s r) q = readRegister s q :=
  readRegister_setRdata s _ q

/-- A read repeated leaves what the first left. -/
theorem hostRead_hostRead (s : State) (r : Reg) : hostRead (hostRead s r) r = hostRead s r := by
  rw [hostRead, readRegister_hostRead]
  rfl

/-- A later write of a register replaces an earlier one (R177). -/
theorem hostWrite_hostWrite (s : State) (r : Reg) (first second : BusData) :
    hostWrite (hostWrite s r first) r second = hostWrite s r second := by
  cases r <;> rfl

/-- A write of the current levels leaves them (R46). -/
theorem writeRegister_levels_current {s : State} {data : BusData} (h : levelsOfData data = s.lv) :
    writeRegister s .levels data = s := by
  rw [writeRegister, h]
  rfl

/-- Settles O23: a read sets `rdata` alone, and a write sets LV alone or FREQ alone or nothing. -/
theorem accessSideEffects : Obligations.AccessSideEffects := by
  refine ⟨fun s t data i hi hexec => ?_, fun s data r => ⟨rfl, rfl⟩, fun s data => ⟨rfl, rfl, rfl, rfl⟩,
    fun s first second => ?_, fun s t data hexec hsame => ?_⟩
  · obtain ⟨r, hread⟩ := exec_read hi
    rw [hread] at hexec
    cases hexec
    exact ⟨rfl, by rw [hread, hostRead_hostRead], readRegister_hostRead s r⟩
  · exact ⟨congrArg _ (hostWrite_hostWrite s .levels first second), congrArg _ (hostWrite_hostWrite s .freqlv first second)⟩
  · cases hexec
    rw [hostWrite, writeRegister_levels_current hsame]
    rfl

end Machine

end Sys2Proof

namespace Sys2Proof

/-! ### The bus instruction of a register (R61, R66) -/

/-- The bus command that reads (`we` = false) or writes a register, with its DATA field (R66). -/
def Reg.instr (r : Reg) (we : Bool) (data : BusData) : Instr :=
  match we, r with
  | false, .levels => .rdLevels data
  | false, .freq => .rdFreq data
  | false, .freqlv => .rdFreqlv data
  | false, .tick => .rdTick data
  | true, .levels => .wrLevels data
  | true, .freq => .wrFreq data
  | true, .freqlv => .wrFreqlv data
  | true, .tick => .wrTick data

theorem encode_regInstr (r : Reg) (we : Bool) (data : BusData) :
    encode (r.instr we data) = .bus (busWordOf we r.addr data) := by
  cases we <;> cases r <;> rfl

theorem decodeBus_busWordOf (r : Reg) (we : Bool) (data : BusData) :
    decodeBus (busWordOf we r.addr data) = r.instr we data := by
  simp only [decodeBus, busWordOf_we, busWordOf_addr1, busWordOf_addr0, busWordOf_data]
  cases we <;> cases r <;> rfl

/-- Every bus word is the word of an access to one of the four registers: no address is unassigned (R41, R68). -/
theorem exists_busWordOf (txn : BusWord) : ∃ (we : Bool) (r : Reg) (data : BusData), txn = busWordOf we r.addr data :=
  ⟨txn.getLsbD 34, .ofAddr (txn.extractLsb' 32 2), txn.extractLsb' 0 32, by
    rw [Reg.addr_ofAddr, busWordOf_fields]⟩

/-- The address that selects a register is the register's (R41). -/
theorem Reg.eq_addr_of_ofAddr {a : BusAddr} {r : Reg} (h : Reg.ofAddr a = r) : a = r.addr := by
  rw [← h, Reg.addr_ofAddr]

/-! ### Decoding and encoding -/

theorem decode_encode_regInstr (r : Reg) (we : Bool) (data : BusData) :
    decode (encode (r.instr we data)) = r.instr we data := by
  rw [encode_regInstr]
  exact decodeBus_busWordOf r we data

/-- What an instruction encodes to decodes to it: an access to a register by its fields, a port event by its code. -/
theorem decode_encode (i : Instr) : decode (encode i) = i := by
  cases i with
  | rdLevels data => exact decode_encode_regInstr .levels false data
  | rdFreq data => exact decode_encode_regInstr .freq false data
  | rdFreqlv data => exact decode_encode_regInstr .freqlv false data
  | rdTick data => exact decode_encode_regInstr .tick false data
  | wrLevels data => exact decode_encode_regInstr .levels true data
  | wrFreq data => exact decode_encode_regInstr .freq true data
  | wrFreqlv data => exact decode_encode_regInstr .freqlv true data
  | wrTick data => exact decode_encode_regInstr .tick true data
  | idle => decide
  | tuStep => decide
  | reset t => cases t <;> decide

theorem encode_decodePort (ev : PortCode) : encode (decodePort ev) = .port ev := by
  revert ev
  decide

/-- Decoding drops no bit of a word: ignored fields are kept as operands (log entry 12). -/
theorem encode_decode (w : RawWord) : encode (decode w) = w := by
  cases w with
  | port ev => exact encode_decodePort ev
  | bus txn =>
    obtain ⟨we, r, data, rfl⟩ := exists_busWordOf txn
    rw [decode, decodeBus_busWordOf, encode_regInstr]

/-- The signals made of two words carry that bus word, or none (R61). -/
theorem Pins.busWord_ofWords (ev : PortCode) (txn : Option BusWord) : (Pins.ofWords ev txn).busWord = txn := by
  cases txn with
  | none => rfl
  | some w => exact congrArg some (busWordOf_fields w)

/-- Settles O9: by the instruction's constructors one way, by the word's fields the other. -/
theorem decodeAndEncodeAgree : Obligations.DecodeAndEncodeAgree :=
  ⟨decode_encode, encode_decode, fun ev txn => ⟨Pins.portCode_ofWords ev txn, Pins.busWord_ofWords ev txn⟩⟩

/-! ### The rows of the opcode maps (R66, R67) -/

/-- The bus rows look at the opcode bits `txn[34:32]` alone (R66). -/
theorem opcodeTable_mask {row : OpcodeRow} (h : row ∈ opcodeTable) : row.format = .bus → row.mask = 0x700000000 := by
  revert row
  decide

theorem matchesWord_iff (row : OpcodeRow) (w : RawWord) :
    row.matchesWord w = true ↔ row.format = w.format ∧ w.toNat &&& row.mask = row.value := by
  rw [OpcodeRow.matchesWord, Bool.and_eq_true, decide_eq_true_iff, decide_eq_true_iff]

/-- A bus word is of a bus row where its opcode bits, WE and ADDR, are the row's value (R66). -/
theorem matchesWord_busWordOf_iff {row : OpcodeRow} (h : row ∈ opcodeTable) (we : Bool) (a : BusAddr) (data : BusData) :
    row.matchesWord (.bus (busWordOf we a data)) = true ↔ row.format = .bus ∧ (busWordOf we a 0).toNat = row.value := by
  refine (matchesWord_iff row _).trans (and_congr_right fun hbus => ?_)
  rw [opcodeTable_mask h hbus, RawWord.toNat, Laws.Opcode.opcode_bits]

/-- The mnemonics of the rows a word is of. -/
def matchingMnemonics (w : RawWord) : List String := (opcodeTable.filter (·.matchesWord w)).map (·.mnemonic)

/-- Which rows a bus word is of does not depend on its DATA. -/
theorem matchingMnemonics_busWordOf (we : Bool) (a : BusAddr) (data : BusData) :
    matchingMnemonics (.bus (busWordOf we a data)) = matchingMnemonics (.bus (busWordOf we a 0)) := by
  have hrow : ∀ row ∈ opcodeTable, row.matchesWord (.bus (busWordOf we a data)) =
      row.matchesWord (.bus (busWordOf we a 0)) := fun row h =>
    Bool.eq_iff_iff.2 ((matchesWord_busWordOf_iff h we a data).trans (matchesWord_busWordOf_iff h we a 0).symm)
  rw [matchingMnemonics, List.filter_congr hrow, matchingMnemonics]

/-- The mnemonic of a bus command does not depend on its DATA. -/
theorem mnemonic_regInstr (r : Reg) (we : Bool) (data : BusData) :
    (r.instr we data).mnemonic = (r.instr we 0).mnemonic := by
  cases we <;> cases r <;> rfl

/-- Settles O8: the four port codes one by one; a bus word's rows are those of its opcode with DATA 0. -/
theorem exactlyOneOpcodeRowMatches : Obligations.ExactlyOneOpcodeRowMatches := by
  intro w
  change matchingMnemonics w = [(decode w).mnemonic]
  cases w with
  | port ev =>
    revert ev
    decide
  | bus txn =>
    obtain ⟨we, r, data, rfl⟩ := exists_busWordOf txn
    rw [matchingMnemonics_busWordOf, decode, decodeBus_busWordOf, mnemonic_regInstr]
    cases we <;> cases r <;> decide

/-! ### Numbers as words (log entry 8) -/

/-- How many bits the table gives a row of the format, in whole bytes. -/
def Format.tableBits : Format → Nat
  | .bus => 40
  | .port => 8

/-- The word of an instruction, as a number of its table row, decodes to the instruction. -/
theorem decodeTableWord_encode (i : Instr) :
    decodeTableWord (encode i).format.tableBits (encode i).toNat = some i := by
  have hraw : rawWord (tableFormat (encode i).format.tableBits) (encode i).toNat = .ok (encode i) := by
    cases encode i with
    | bus txn =>
      have hfits : Format.bus.fits txn.toNat = true := decide_eq_true txn.isLt
      simp [rawWord, tableFormat, Format.tableBits, RawWord.format, RawWord.toNat, hfits]
    | port ev =>
      have hfits : Format.port.fits ev.toNat = true := decide_eq_true ev.isLt
      simp [rawWord, tableFormat, Format.tableBits, RawWord.format, RawWord.toNat, hfits]
  simp [decodeTableWord, decodeNat, hraw, decode_encode]

/-- Settles O10: each word is the encoding of its operation, so that it decodes to it; the last two numbers fit no word. -/
theorem documentedWordsDecode : Obligations.DocumentedWordsDecode :=
  ⟨decodeTableWord_encode (.rdLevels 0), decodeTableWord_encode (.rdFreq 0), decodeTableWord_encode (.rdFreqlv 0),
    decodeTableWord_encode (.rdTick 0), decodeTableWord_encode (.wrLevels 0x8F0), decodeTableWord_encode (.wrFreq 0x37),
    decodeTableWord_encode (.wrFreqlv 0xFFFFFFFF), decodeTableWord_encode (.wrTick 5),
    decodeTableWord_encode (.wrLevels 0xFFFFF123), decodeTableWord_encode (.wrLevels 0xFFF),
    decodeTableWord_encode (.wrFreq 0), decodeTableWord_encode (.wrFreqlv 0), decodeTableWord_encode (.wrFreqlv 3),
    decodeTableWord_encode (.wrFreqlv 15), decodeTableWord_encode (.rdLevels 0x12345678), decodeTableWord_encode .idle,
    decodeTableWord_encode .tuStep, decodeTableWord_encode (.reset false), decodeTableWord_encode (.reset true),
    by decide, by decide⟩

/-! ### Assembled lines (R70, R71) -/

namespace Asm

/-- A line's port code is its event's: the encoding of an event is a port code (R67). -/
theorem decodePort_eventCode (e : Option Event) : decodePort (eventCode e) = (e.getD .idle).instr := by
  have hencode : encode (e.getD .idle).instr = .port (eventCode e) := by
    rw [eventCode]
    cases e.getD .idle <;> rfl
  rw [← decode_encode (e.getD .idle).instr, hencode, decode]

/-- A line's bus word is its command's: the encoding of a command is a bus word (R66). -/
theorem map_decodeBus_commandWord (c : Option Command) : (commandWord c).map decodeBus = c.map Command.instr := by
  cases c with
  | none => rfl
  | some c =>
    obtain ⟨txn, henc⟩ : ∃ txn, encode c.instr = .bus txn := by
      rcases c with ⟨_ | _⟩ | ⟨_ | _, _⟩ <;> exact ⟨_, rfl⟩
    have hdec : decodeBus txn = c.instr := by rw [← decode_encode c.instr, henc, decode]
    simp [commandWord, henc, hdec]

/-- The signals of a line carry its event and its command, and nothing else (R70). -/
theorem event_command_cyclePins (e : Option Event) (c : Option Command) :
    (cyclePins e c).event = (e.getD .idle).instr ∧ (cyclePins e c).command = c.map Command.instr :=
  ⟨by rw [Pins.event, cyclePins, Pins.portCode_ofWords, decodePort_eventCode],
    by rw [Pins.command, cyclePins, Pins.busWord_ofWords, map_decodeBus_commandWord]⟩

theorem Line.assemble_of_wf {l : Line} (h : l.wf = true) : l.assemble = some l.expand := if_pos h

theorem Line.assemble_of_not_wf {l : Line} (h : ¬l.wf = true) : l.assemble = none := if_neg h

/-- Settles O13: the decoder reads back the two words that a line is made of. -/
theorem assembledLinesDecode : Obligations.AssembledLinesDecode := by
  intro e c
  refine ⟨fun hwf => ?_, fun r imm himm => ?_⟩
  · obtain ⟨hevent, hcommand⟩ := event_command_cyclePins e c
    exact ⟨cyclePins e c, Line.assemble_of_wf hwf, hevent, hcommand⟩
  · exact Line.assemble_of_not_wf fun hwf => absurd (of_decide_eq_true hwf : imm ≤ 0xFFFFFFFF) (by omega)

theorem Line.wf_setlv_iff {l0 l1 l2 : Nat} : (Line.setlv l0 l1 l2).wf = true ↔ l0 ≤ 15 ∧ l1 ≤ 15 ∧ l2 ≤ 15 := by
  simp [Line.wf, levelFits, and_assoc]

/-- Settles O12: each pseudo-instruction passes the checks that its expansion passes, and is refused where R71 says so. -/
theorem pseudoInstructionsExpand : Obligations.PseudoInstructionsExpand := by
  refine ⟨fun n hn => ?_, fun n hn => ?_, rfl, fun l0 l1 l2 h0 h1 h2 => ?_, fun l0 l1 l2 hwide => ?_, fun level => rfl,
    rfl, rfl⟩
  · exact Line.assemble_of_wf (decide_eq_true hn)
  · exact Line.assemble_of_wf (decide_eq_true hn)
  · have hexpansion : (Line.cycle none (some (.wr .levels (l2 * 256 + l1 * 16 + l0)))).wf = true :=
      decide_eq_true (by omega : l2 * 256 + l1 * 16 + l0 ≤ 0xFFFFFFFF)
    rw [Line.assemble_of_wf (Line.wf_setlv_iff.2 ⟨h0, h1, h2⟩), Line.assemble_of_wf hexpansion]
    rfl
  · exact Line.assemble_of_not_wf (mt Line.wf_setlv_iff.1 hwide)

end Asm

/-! ### Signals that select something (R68, R171) -/

/-- The cycle carries a transaction that is no write dropped by RESET. -/
def Pins.accesses (p : Pins) : Bool := p.busValid && !(p.rst && p.busWe)

theorem Pins.busValid_of_accesses {p : Pins} (h : p.accesses = true) : p.busValid = true := (Bool.and_eq_true_iff.1 h).1

namespace Machine

/-! ### The layout of LEVELS (R64) -/

theorem levelsOfData_field (data : BusData) (c : Channel) :
    (levelsOfData data).get c = data.extractLsb' (4 * c.val) 4 := by
  match c with
  | 0 => rfl
  | 1 => rfl
  | 2 => rfl

/-- What a read returns is what a write of it would set. -/
theorem levelsOfData_levelsWord (l : Levels) : levelsOfData (levelsWord l) = l := by
  have hlow : ∀ start, start + 4 ≤ 12 →
      (levelsWord l).extractLsb' start 4 = (l.ch2 ++ (l.ch1 ++ l.ch0)).extractLsb' start 4 :=
    fun _ hle => BitVec.extractLsb'_append_eq_of_add_le hle
  have h0 : (levelsWord l).extractLsb' 0 4 = l.ch0 :=
    ((hlow 0 (by decide)).trans (BitVec.extractLsb'_append_eq_of_add_le (by decide))).trans
      BitVec.extractLsb'_append_eq_right
  have h1 : (levelsWord l).extractLsb' 4 4 = l.ch1 :=
    ((hlow 4 (by decide)).trans (BitVec.extractLsb'_append_eq_of_add_le (by decide))).trans
      BitVec.extractLsb'_append_eq_left
  have h2 : (levelsWord l).extractLsb' 8 4 = l.ch2 := (hlow 8 (by decide)).trans BitVec.extractLsb'_append_eq_left
  rw [levelsOfData, h0, h1, h2]

theorem levelsWord_field (l : Levels) (c : Channel) : (levelsWord l).extractLsb' (4 * c.val) 4 = l.get c := by
  rw [← levelsOfData_field, levelsOfData_levelsWord]

theorem levelsWord_high (l : Levels) : (levelsWord l).extractLsb' 12 20 = 0 := BitVec.extractLsb'_append_eq_left

/-- The word of a written triple is DATA[11:0]. -/
theorem levelsWord_levelsOfData (data : BusData) : levelsWord (levelsOfData data) = data &&& 0xFFF := by
  have h10 : data.extractLsb' 4 4 ++ data.extractLsb' 0 4 = data.extractLsb' 0 8 :=
    BitVec.extractLsb'_append_extractLsb'_eq_extractLsb' rfl
  have h210 : data.extractLsb' 8 4 ++ data.extractLsb' 0 8 = data.extractLsb' 0 12 :=
    BitVec.extractLsb'_append_extractLsb'_eq_extractLsb' rfl
  have hfields : levelsWord (levelsOfData data) = 0#20 ++ data.extractLsb' 0 12 :=
    (congrArg (fun low => 0#20 ++ (data.extractLsb' 8 4 ++ low)) h10).trans (congrArg (0#20 ++ ·) h210)
  apply BitVec.eq_of_toNat_eq
  calc (levelsWord (levelsOfData data)).toNat
    _ = (data.extractLsb' 0 12).toNat := by
      rw [hfields, BitVec.toNat_append]
      simp
    _ = data.toNat % 2 ^ 12 := BitVec.extractLsb'_toNat ..
    _ = (data &&& 0xFFF).toNat := (Nat.and_two_pow_sub_one_eq_mod data.toNat 12).symm

/-- A write looks at DATA[11:0] alone. -/
theorem levelsOfData_congr {data data' : BusData} (h : data.extractLsb' 0 12 = data'.extractLsb' 0 12) :
    levelsOfData data = levelsOfData data' := by
  have hfield : ∀ start, start + 4 ≤ 12 → data.extractLsb' start 4 = data'.extractLsb' start 4 := fun start hle => by
    rw [← BitVec.extractLsb'_extractLsb'_of_le hle, h, BitVec.extractLsb'_extractLsb'_of_le hle]
  rw [levelsOfData, levelsOfData, hfield 0 (by decide), hfield 4 (by decide), hfield 8 (by decide)]

/-- Settles O22: by the fields of the word of a triple and of the triple of a word. -/
theorem levelsRegisterLayout : Obligations.LevelsRegisterLayout :=
  ⟨fun s => levelsWord_field s.lv, fun s => levelsWord_high s.lv, fun _ => levelsOfData_field,
    fun _ => levelsWord_levelsOfData, by decide⟩

/-! ### Signals that select nothing (R63, R68, R170, R171) -/

/-- Without such a transaction the cycle reads nothing and writes nothing (R68, R171). -/
theorem cycleState_of_not_accesses {p : Pins} (h : p.accesses = false) (s : State) :
    cycleState p s = (afterEvent p s).setRdata 0 := by
  have hnone : (p.busValid && !p.busWe) = false ∧ (p.busValid && p.busWe && !p.rst) = false := by
    revert h
    rw [Pins.accesses]
    cases p.busValid <;> cases p.busWe <;> cases p.rst <;> decide
  obtain ⟨hread, hwrite⟩ := hnone
  simp [cycleState, afterWrite, cycleRdata, hread, hwrite]

/-- A write of a register looks at DATA[11:0] where it is LEVELS, at all of DATA where it is FREQLV, and at none of it
where it is FREQ or TICK (R63). -/
theorem writeRegister_congr {r : Reg} {data data' : BusData}
    (hlevels : r = .levels → data.extractLsb' 0 12 = data'.extractLsb' 0 12) (hfreqlv : r = .freqlv → data = data')
    (s : State) : writeRegister s r data = writeRegister s r data' := by
  cases r with
  | levels => rw [writeRegister, writeRegister, levelsOfData_congr (hlevels rfl)]
  | freq => rfl
  | freqlv => rw [hfreqlv rfl]
  | tick => rfl

/-- The port event of a cycle does not look at `tu_en` where RESET is asked for (R67, R170). -/
theorem afterEvent_congr {p q : Pins} (hrst : p.rst = q.rst) (htu : p.rst = false → p.tuEn = q.tuEn) (s : State) :
    afterEvent p s = afterEvent q s := by
  rw [afterEvent, afterEvent, ← hrst]
  cases h : p.rst with
  | true => rfl
  | false => rw [htu h]

/-- Settles O27: without an access both cycles are their port event alone; with one, the same register is read, or
written with data that it cannot tell apart. -/
theorem unusedSignalsHaveNoEffect : Obligations.UnusedSignalsHaveNoEffect := by
  intro p q s hrst htu hsame hbus
  change p.accesses = q.accesses at hsame
  change p.accesses = true → _ at hbus
  suffices hstate : cycleState p s = cycleState q s by rw [cycle_eq, cycle_eq, hrst, hstate]
  have hevent := afterEvent_congr hrst htu s
  cases hacc : p.accesses with
  | false => rw [cycleState_of_not_accesses hacc, cycleState_of_not_accesses (hsame ▸ hacc), hevent]
  | true =>
    obtain ⟨hwe, haddr, hlevels, hfreqlv⟩ := hbus hacc
    have hvalid : p.busValid = q.busValid :=
      (Pins.busValid_of_accesses hacc).trans (Pins.busValid_of_accesses (hsame ▸ hacc)).symm
    have hrdata : cycleRdata p s = cycleRdata q s := by rw [cycleRdata, cycleRdata, hvalid, hwe, haddr]
    have hwrite : afterWrite p (afterEvent p s) = afterWrite q (afterEvent p s) := by
      rw [afterWrite, afterWrite, ← hvalid, ← hwe, ← haddr, ← hrst]
      split
      case isFalse => rfl
      case isTrue h =>
        obtain ⟨⟨-, hwrites⟩, -⟩ : (p.busValid = true ∧ p.busWe = true) ∧ p.rst = false := by simpa using h
        exact writeRegister_congr (fun hreg => hlevels hwrites (Reg.eq_addr_of_ofAddr hreg))
          (fun hreg => hfreqlv hwrites (Reg.eq_addr_of_ofAddr hreg)) _
    rw [cycleState, cycleState, hrdata, hwrite, hevent]

end Machine

end Sys2Proof

namespace Sys2Proof.Machine

/-! ### The tick duration (R81, R83) -/

/-- On its domain the divider is the natural-number quotient of R81: the result fits in the register's 12 bits (R7). -/
theorem tickDuration_toNat {f : Freq} (hmin : 10 ≤ f.toNat) (hmax : f.toNat ≤ 160) :
    (tickDuration f).toNat = 1000000 / (48 * f.toNat) := by
  have hdivisor : Config.nch * f.toNat * Config.levels = 48 * f.toNat := by simp only [Config.nch, Config.levels]; omega
  have hfits : 1000000 / (48 * f.toNat) < 2 ^ 12 := Nat.div_lt_of_lt_mul (by omega)
  rw [tickDuration, if_pos ⟨hmin, hmax⟩, hdivisor, BitVec.toNat_ofNat]
  exact Nat.mod_eq_of_lt hfits

/-- The divider's value does not increase with the frequency: a larger divisor gives a smaller quotient (R83). -/
theorem tickDuration_anti {f g : Freq} (hmin : 10 ≤ f.toNat) (hle : f.toNat ≤ g.toNat) (hmax : g.toNat ≤ 160) :
    (tickDuration g).toNat ≤ (tickDuration f).toNat := by
  rw [tickDuration_toNat hmin (hle.trans hmax), tickDuration_toNat (hmin.trans hle) hmax]
  exact Nat.div_le_div_left (Nat.mul_le_mul_left 48 hle) (by omega)

/-- The range of R81: the divider's values lie between those at the two ends of its domain. -/
theorem tickDuration_bounds {f : Freq} (hmin : 10 ≤ f.toNat) (hmax : f.toNat ≤ 160) :
    130 ≤ (tickDuration f).toNat ∧ (tickDuration f).toNat ≤ 2083 :=
  ⟨tickDuration_anti (g := 160) hmin hmax (by decide), tickDuration_anti (f := 10) (by decide) hmin hmax⟩

/-- The law of R83: a frame of 48·t time units, taken f times, is the last multiple of 48·f that K reaches. -/
theorem tickDuration_truncates {f : Freq} (hmin : 10 ≤ f.toNat) (hmax : f.toNat ≤ 160) :
    48 * f.toNat * (tickDuration f).toNat ≤ 1000000 ∧ 1000000 < 48 * f.toNat * ((tickDuration f).toNat + 1) := by
  rw [tickDuration_toNat hmin hmax]
  exact ⟨Nat.mul_div_le .., Nat.lt_mul_div_succ _ (by omega)⟩

/-- Settles O28: the quotient of R81 with its divisor written 3·f·16, its range, and the vectors' values. -/
theorem tickDurationIsTruncatingDivision : Obligations.TickDurationIsTruncatingDivision := by
  refine ⟨fun f hmin hmax => ⟨?_, tickDuration_bounds hmin hmax⟩, rfl, rfl, rfl, rfl⟩
  rw [tickDuration_toNat hmin hmax, show 3 * f.toNat * 16 = 48 * f.toNat by omega]

/-- Settles O30: the law and the order hold for every frequency; 158 and 159 share the tick 131. -/
theorem truncationLaw : Obligations.TruncationLaw := by
  refine ⟨fun f hmin hmax => ?_, fun f g => tickDuration_anti, 158, 159, by decide⟩
  have hreorder (n : Nat) : n * 3 * f.toNat * 16 = 48 * f.toNat * n := by ring
  rw [hreorder, hreorder]
  exact tickDuration_truncates hmin hmax

/-! ### The frequency of a level (R82, R84, R85) -/

/-- The clamp of R84 never changes a level's value. -/
theorem levelToFrequency_toNat_eq (l : Level) : (levelToFrequency l).toNat = 10 * l.toNat + 10 := by
  rw [levelToFrequency_toNat, clampedFrequency_eq]
  split <;> omega

/-- The divider on the frequency of a level is the quotient of R81 at 10·l + 10. -/
theorem tickDuration_levelToFrequency_toNat (l : Level) :
    (tickDuration (levelToFrequency l)).toNat = 1000000 / (48 * (10 * l.toNat + 10)) := by
  have hf := levelToFrequency_toNat_eq l
  rw [tickDuration_toNat (by omega) (by omega), hf]

/-- On a level zero-extended to 32 bits the two conversions agree (R85). -/
theorem levelToFrequencySat_setWidth (l : Level) : levelToFrequencySat (l.setWidth 32) = levelToFrequency l := by
  rw [levelToFrequencySat, levelToFrequency, BitVec.toNat_setWidth_of_le (by decide)]

/-- The saturating conversion by the two cases of R85. -/
theorem levelToFrequencySat_eq (w : BusData) :
    levelToFrequencySat w = if 15 ≤ w.toNat then 160 else BitVec.ofNat 8 (10 * w.toNat + 10) := by
  rw [levelToFrequencySat, clampedFrequency_eq, apply_ite (BitVec.ofNat 8)]
  rfl

/-- Settles O29: each row follows from its level by the closed forms of R84 and R81. -/
theorem reachableTickTable : Obligations.ReachableTickTable := by
  simp only [Obligations.ReachableTickTable, levelToFrequency_toNat_eq, tickDuration_levelToFrequency_toNat]
  decide

/-- Settles O31: the clamp is R84's definition, its closed forms are the lemmas above, and the saturating values follow
from the case 15 ≤ w. -/
theorem levelToFrequencySaturates : Obligations.LevelToFrequencySaturates := by
  refine ⟨levelToFrequency_toNat_eq, fun l m hle => ?_, levelToFrequencySat_toNat, levelToFrequencySat_eq,
    levelToFrequencySat_setWidth, rfl, levelToFrequencySat_eq 16, levelToFrequencySat_eq 20,
    levelToFrequencySat_eq 0xFFFFFFFF⟩
  rw [levelToFrequency_toNat_eq, levelToFrequency_toNat_eq]
  omega

/-! ### The frame length (R87) -/

/-- Settles O32: the law of R83 over the rationals, divided by f, and by the frame length, which is not 0. -/
theorem frameLengthBounds : Obligations.FrameLengthBounds := by
  intro f hmin hmax
  obtain ⟨hle, hlt⟩ := tickDuration_truncates hmin hmax
  have hf : (0 : Rat) < f.toNat := by exact_mod_cast (show 0 < f.toNat by omega)
  have hframe : (0 : Rat) < 48 * (tickDuration f).toNat := by
    have := (tickDuration_bounds hmin hmax).1
    exact_mod_cast (show 0 < 48 * (tickDuration f).toNat by omega)
  have hleQ : (48 * f.toNat * (tickDuration f).toNat : Rat) ≤ 1000000 := by exact_mod_cast hle
  have hltQ : (1000000 : Rat) < 48 * f.toNat * ((tickDuration f).toNat + 1) := by exact_mod_cast hlt
  refine ⟨?_, ?_, ?_⟩
  · rw [sub_lt_iff_lt_add, div_lt_iff₀ hf]
    linarith
  · rw [le_div_iff₀ hf]
    linarith
  · rw [le_div_iff₀ hframe]
    linarith

end Sys2Proof.Machine

namespace Sys2Proof

/-! ### The host commands by register (R41, R66, R100) -/

/-- A word whose opcode bits are WE and a register's address is that register's command, whatever its DATA (R66). -/
theorem decodeBus_of_opcode (r : Reg) (we : Bool) {txn : BusWord}
    (h : txn.extractLsb' 32 3 = BitVec.ofBool we ++ r.addr) :
    decodeBus txn = r.instr we (txn.extractLsb' 0 32) := by
  have hbit (i : Nat) (hi : i < 3) : txn.getLsbD (32 + i) = (BitVec.ofBool we ++ r.addr).getLsbD i := by
    rw [← h, BitVec.getLsbD_extractLsb', decide_eq_true hi, Bool.true_and]
  rw [decodeBus, hbit 2 (by decide), hbit 1 (by decide), hbit 0 (by decide)]
  cases we <;> cases r <;> rfl

namespace Machine

theorem exec_regInstr_read (r : Reg) (data : BusData) (s : State) :
    exec (r.instr false data) s = .next (hostRead s r) := by
  cases r <;> rfl

theorem exec_regInstr_write (r : Reg) (data : BusData) (s : State) :
    exec (r.instr true data) s = .next (hostWrite s r data) := by
  cases r <;> rfl

/-- A read right after a write returns the register's value in the written state (R49). -/
theorem exec_write_then_read (w r : Reg) (v data : BusData) (s : State) :
    andThen (exec (w.instr true v) s) (exec (r.instr false data)) =
      .next ((writeRegister s w v).setRdata (readRegister (writeRegister s w v) r)) := by
  rw [exec_regInstr_write, andThen, exec_regInstr_read, hostRead, hostWrite, readRegister_setRdata]
  rfl

/-! ### The reads (R101 to R104) -/

/-- The word of a triple, with its fields joined from the left as R101 writes them. -/
theorem levelsWord_eq_append (l : Levels) : levelsWord l = 0#20 ++ l.ch2 ++ l.ch1 ++ l.ch0 :=
  ((BitVec.append_assoc (x₁ := 0#20 ++ l.ch2) (x₂ := l.ch1) (x₃ := l.ch0)).trans BitVec.append_assoc).symm

/-- R102's zero extension, written as a concatenation. -/
theorem readRegister_freq (s : State) : readRegister s .freq = 0#24 ++ s.freq := BitVec.setWidth_eq_append (by decide)

/-- R104's zero extension, written as a concatenation. -/
theorem readRegister_tick (s : State) : readRegister s .tick = 0#20 ++ tickDuration s.freq :=
  BitVec.setWidth_eq_append (by decide)

theorem readRegister_freq_toNat (s : State) : (readRegister s .freq).toNat = s.freq.toNat :=
  BitVec.toNat_setWidth_of_le (by decide)

theorem readRegister_tick_toNat (s : State) : (readRegister s .tick).toNat = (tickDuration s.freq).toNat :=
  BitVec.toNat_setWidth_of_le (by decide)

/-- Settles O14: the command reads LEVELS, the word of the triple. -/
theorem rdLevelsReadsTheTriple : Obligations.RdLevelsReadsTheTriple := by
  refine ⟨fun txn => decodeBus_of_opcode .levels false, fun data s => ?_, rfl⟩
  rw [← levelsWord_eq_append]
  exact exec_regInstr_read .levels data s

/-- Settles O15: the command reads FREQ, which is on the grid in a legal state, 10 after a write of level 0, and left
alone by a write of FREQ. -/
theorem rdFreqReadsTheFrequency : Obligations.RdFreqReadsTheFrequency := by
  refine ⟨fun txn => decodeBus_of_opcode .freq false, fun data s => ?_, fun data s hwf => ?_,
    fun data s => ⟨_, exec_write_then_read .freqlv .freq 0 data s, rfl⟩,
    fun data s => ⟨_, exec_write_then_read .freq .freq 37 data s, readRegister_freq s⟩, rfl⟩
  · rw [← readRegister_freq]
    exact exec_regInstr_read .freq data s
  · obtain ⟨l, hl, hfreq⟩ := hwf.gridFreq
    exact ⟨_, l, exec_regInstr_read .freq data s, Nat.le_of_lt_succ hl, (readRegister_freq_toNat s).trans hfreq⟩

/-- Settles O16: the command reads FREQLV, which holds nothing: a level written before leaves only its frequency. -/
theorem rdFreqlvReadsZero : Obligations.RdFreqlvReadsZero :=
  ⟨fun _ => decodeBus_of_opcode .freqlv false, exec_regInstr_read .freqlv,
    fun data s => ⟨_, exec_write_then_read .freqlv .freqlv 15 data s, rfl, levelToFrequencySat_eq 15⟩⟩

/-- Settles O17: the command reads TICK, the divider's value at FREQ, which a legal state has on the divider's
domain. -/
theorem rdTickReadsTheDivider : Obligations.RdTickReadsTheDivider := by
  have htick : (tickDuration (levelToFrequencySat 3)).setWidth 32 = 0x00000208#32 := by decide
  refine ⟨fun txn => decodeBus_of_opcode .tick false, fun data s => ?_, fun data s hwf => ?_,
    fun data s => ⟨_, exec_write_then_read .freqlv .tick 3 data s, htick⟩, rfl⟩
  · rw [← readRegister_tick]
    exact exec_regInstr_read .tick data s
  · obtain ⟨hmin, hmax⟩ := hwf.gridFreq.bounds
    have hread : (hostRead s .tick).rdata.toNat = (tickDuration s.freq).toNat := readRegister_tick_toNat s
    refine ⟨_, exec_regInstr_read .tick data s, ?_⟩
    rw [hread]
    exact ⟨tickDuration_toNat hmin hmax, tickDuration_bounds hmin hmax⟩

/-! ### The writes (R105 to R108) -/

/-- A cycle with a command that RESET does not drop: the command's read data is taken before the edge, its effect after
the port event (R48). -/
theorem cycle_of_command {p : Pins} {s : State} {i : Instr} (hseen : s.resetSeen = true) (hrst : p.rst = false)
    (hcmd : p.command = some i) :
    cycle p s =
      andThen (exec i s) fun read => andThen (exec i (afterEvent p s)) fun t => .next (t.setRdata read.rdata) := by
  obtain ⟨t, ht⟩ := exec_next i s
  simp [cycle, precedesFirstReset, readData, runCommand, exec_event, hseen, hrst, hcmd, ht, andThen]

/-- A write command leaves the engine's own state. -/
theorem sameEngine_hostWrite (s : State) (r : Reg) (data : BusData) : SameEngine s (hostWrite s r data) :=
  (sameEngine_writeRegister s r data).trans ⟨rfl, rfl, rfl, rfl, rfl⟩

/-- A write in a cycle that counts a time unit acts on the state after the engine step (R48). -/
theorem cycle_write_timeUnit {p : Pins} {s : State} {r : Reg} {data : BusData} (hseen : s.resetSeen = true)
    (hrst : p.rst = false) (htu : p.tuEn = true) (hcmd : p.command = some (r.instr true data)) :
    cycle p s = .next (hostWrite (engineStep s) r data) := by
  have hevent : afterEvent p s = engineStep s := by simp [afterEvent, hrst, htu]
  rw [cycle_of_command hseen hrst hcmd, hevent, exec_regInstr_write, exec_regInstr_write]
  rfl

/-- Settles O18: the write sets LV alone, after the engine step where its cycle has one, so that a snapshot at that step
takes the old triple. -/
theorem wrLevelsSetsTheTriple : Obligations.WrLevelsSetsTheTriple := by
  refine ⟨fun txn => decodeBus_of_opcode .levels true, exec_regInstr_write .levels, fun data s t hexec c => ?_,
    fun data p s hseen hrst htu hcmd => ?_, fun s => ⟨_, exec_regInstr_write .levels 0x8F0 s, rfl⟩,
    fun data s => ⟨_, exec_write_then_read .levels .levels 0xFFFFF123 data s, rfl,
      levelsWord_levelsOfData 0xFFFFF123⟩⟩
  · cases hexec
    exact ((sameEngine_hostWrite s .levels data).out c).symm
  · have hwrite := sameEngine_hostWrite (engineStep s) .levels data
    refine ⟨_, cycle_write_timeUnit (r := .levels) hseen hrst htu hcmd, rfl, fun hend => ?_, fun hmid => ?_⟩
    · rw [← hwrite.snapLv, ← hwrite.snapTick, engineStep_of_frameEnds hend]
      exact ⟨rfl, rfl⟩
    · obtain ⟨c, p, u, hstep⟩ := engineStep_of_not_frameEnds (s := s) hmid
      rw [← hwrite.snapLv, ← hwrite.snapTick, hstep s (.refl s)]
      exact ⟨rfl, rfl⟩

/-- Settles O19: a write of FREQ changes no register, so that FREQ reads its reset value after it. -/
theorem wrFreqChangesNothing : Obligations.WrFreqChangesNothing :=
  ⟨fun _ => decodeBus_of_opcode .freq true, exec_regInstr_write .freq,
    fun data => ⟨_, exec_write_then_read .freq .freq 37 data .reset, rfl⟩⟩

/-- The saturating conversion as a minimum (R85). -/
theorem levelToFrequencySat_toNat_eq_min (w : BusData) :
    (levelToFrequencySat w).toNat = min (10 * w.toNat + 10) 160 := by
  rw [levelToFrequencySat_toNat, clampedFrequency_eq]
  split <;> omega

/-- Settles O20: the write sets FREQ alone, by the saturating conversion. -/
theorem wrFreqlvSetsTheFrequency : Obligations.WrFreqlvSetsTheFrequency := by
  refine ⟨fun txn => decodeBus_of_opcode .freqlv true, fun data s => ?_, fun data s => ?_,
    fun s => ⟨_, exec_regInstr_write .freqlv 9 s, levelToFrequencySat_eq 9⟩,
    fun s => ⟨_, exec_regInstr_write .freqlv 20 s, levelToFrequencySat_eq 20⟩⟩
  · rw [← levelToFrequencySat_eq]
    exact exec_regInstr_write .freqlv data s
  · exact ⟨_, exec_regInstr_write .freqlv data s, levelToFrequencySat_toNat_eq_min data,
      (onGrid_levelToFrequencySat data).bounds⟩

/-- Settles O21: a write of TICK changes no register, so that TICK reads its reset value after it. -/
theorem wrTickChangesNothing : Obligations.WrTickChangesNothing :=
  ⟨fun _ => decodeBus_of_opcode .tick true, exec_regInstr_write .tick,
    fun data => ⟨_, exec_write_then_read .tick .tick 5 data .reset, rfl⟩⟩

end Machine

end Sys2Proof

namespace Sys2Proof.Machine

/-! ### One cycle of the engine (R122 to R125) -/

/-- Apart from a RESET, the port event of a cycle is one engine step where the cycle counts a time unit, and nothing
where it counts none. -/
theorem afterEvent_of_not_rst {p : Pins} (h : p.rst = false) (s : State) :
    afterEvent p s = if p.ticks then engineStep s else s := by
  simp [afterEvent, Pins.ticks, h]

/-- The engine after a cycle is that after its port event, whatever input signals are still to come. -/
theorem sameEngine_cycleState_inputs (p : Pins) (s : State) (ps : List Pins) (n : Nat) :
    SameEngine (cycleState p { s with inputs := ps, cycle := n }) (afterEvent p s) := by
  rw [cycleState_inputs]
  exact .trans (t := cycleState p s) ⟨rfl, rfl, rfl, rfl, rfl⟩ (sameEngine_cycleState p s)

/-- The engine after a step is that after the port event of its cycle. -/
theorem sameEngine_step {s s' : State} (h : step s = .next s') : SameEngine s' (afterEvent s.nextPins s) := by
  obtain ⟨rfl, -⟩ := cycle_inv h
  exact sameEngine_cycleState_inputs _ s _ _

/-- Before the last tick of a slot a time unit keeps the channel (R122). -/
theorem engineStep_ch_of_pos_lt {s : State} (h : s.pos.toNat < 15) : (engineStep s).ch = s.ch := by
  rcases engineStep_cases s with ⟨-, he⟩ | ⟨-, -, he⟩ | ⟨-, hslot, -⟩ | ⟨-, hslot, -⟩
  · rw [he, State.setPlace_ch]
  · rw [he, State.setPlace_ch]
  · omega
  · omega

/-- The end of a tick clears SUB, in whichever way POS and CH go on (R122). -/
theorem engineStep_sub_of_tickEnds {s : State} (h : tickEnds s = true) : (engineStep s).sub = 0 := by
  rw [tickEnds_iff] at h
  rcases engineStep_cases s with ⟨htick, -⟩ | ⟨-, -, he⟩ | ⟨-, -, -, he⟩ | ⟨-, -, -, he⟩
  · omega
  all_goals rw [he, State.setPlace_sub]

/-- The engine step with its four cases as R122 writes them. -/
theorem engineStep_eq (s : State) :
    engineStep s =
      if s.sub.toNat + 1 < s.snapTick.toNat then { s with sub := s.sub + 1 }
      else if s.pos.toNat < 15 then { s with sub := 0, pos := s.pos + 1 }
      else if s.ch.toNat < 2 then { s with sub := 0, pos := 0, ch := s.ch + 1 }
      else { s with sub := 0, pos := 0, ch := 0, snapLv := s.lv, snapTick := tickDuration s.freq } := by
  rcases engineStep_cases s with ⟨htick, he⟩ | ⟨htick, hslot, he⟩ | ⟨htick, hslot, hch, he⟩ | ⟨htick, hslot, hch, he⟩
  · rw [he, if_pos htick]
    rfl
  · rw [he, if_neg (Nat.not_lt.2 htick), if_pos hslot]
    rfl
  · rw [he, if_neg (Nat.not_lt.2 htick), if_neg (Nat.not_lt.2 hslot), if_pos hch]
    rfl
  · rw [he, if_neg (Nat.not_lt.2 htick), if_neg (Nat.not_lt.2 hslot), if_neg (Nat.not_lt.2 hch)]
    rfl

/-- Settles O33: by the four cases of the step. A step that ends a tick clears SUB, and every legal tick has more than
one time unit. -/
theorem tuStepAdvancesOneTimeUnit : Obligations.TuStepAdvancesOneTimeUnit := by
  refine ⟨by decide, fun s => congrArg _ (engineStep_eq s), fun s t hwf hexec htick => ?_,
    fun s hch hpos hsub htick hlv hfreq => ⟨engineStep s, rfl, ?_⟩⟩
  · cases hexec
    have hbounds := hwf.engineStep_wf.gridTick.bounds
    rw [Bool.eq_false_iff, ne_eq, tickEnds_iff, engineStep_sub_of_tickEnds htick]
    have hzero : (0 : BitVec 12).toNat = 0 := rfl
    omega
  · have hend : s.FrameEnds :=
      ⟨(tickEnds_iff s).2 (by rw [hsub, htick]; decide), (slotEnds_iff s).2 (by rw [hpos]; decide),
        (channelsEnd_iff s).2 (by rw [hch]; decide)⟩
    rw [engineStep_of_frameEnds hend]
    exact ⟨rfl, rfl, rfl, hlv, congrArg tickDuration hfreq⟩

/-- Settles O36: a time unit keeps CH, counts it on from 0 or 1, or ends the frame at 2. -/
theorem channelsInFixedOrder : Obligations.ChannelsInFixedOrder := by
  intro s s' _ hwf hrst hstep
  have hsame := sameEngine_step hstep
  rw [afterEvent_of_not_rst hrst] at hsame
  have hch := hwf.ch_lt
  cases hcount : s.nextPins.ticks with
  | false =>
    rw [hcount] at hsame
    exact .inl hsame.ch
  | true =>
    rw [hcount, if_pos rfl] at hsame
    rcases engineStep_cases s with ⟨-, he⟩ | ⟨-, -, he⟩ | ⟨-, -, hlt, he⟩ | ⟨-, -, hge, he⟩ <;> rw [he] at hsame
    · exact .inl hsame.ch
    · exact .inl hsame.ch
    · have hnext : s'.ch = s.ch + 1 := hsame.ch
      rw [hnext]
      rcases (show s.ch.toNat = 0 ∨ s.ch.toNat = 1 by omega) with h | h
      · obtain h : s.ch = 0 := BitVec.eq_of_toNat_eq h
        exact .inr (.inl ⟨h, by rw [h]; rfl⟩)
      · obtain h : s.ch = 1 := BitVec.eq_of_toNat_eq h
        exact .inr (.inr (.inl ⟨h, by rw [h]; rfl⟩))
    · have h : s.ch = 2 := BitVec.eq_of_toNat_eq (show s.ch.toNat = 2 by omega)
      exact .inr (.inr (.inr ⟨h, hsame.ch, hsame.snapLv, hsame.ch, hsame.pos, hsame.sub⟩))

/-! ### The output lines (R126, R127) -/

/-- The line compare in the machine's own words: CH against the channel's number, POS against its level. -/
theorem out_iff_bitVec (s : State) (c : Channel) :
    out s c = true ↔ s.ch = BitVec.ofNat 2 c.val ∧ s.pos < s.snapLv.get c := by
  have hc : (BitVec.ofNat 2 c.val).toNat = c.val := Nat.mod_eq_of_lt (by omega)
  rw [out_iff, BitVec.lt_def, ← BitVec.toNat_inj, hc]

/-- Settles O37: the lines are read from the engine's own state, which changes by a time unit or a RESET alone. -/
theorem outputLinesCompareTheLevel : Obligations.OutputLinesCompareTheLevel := by
  refine ⟨fun s => ⟨out_iff_bitVec s 0, out_iff_bitVec s 1, out_iff_bitVec s 2⟩, fun s s' hrst htu hstep c => ?_,
    fun p s o hobs => ?_⟩
  · have hevent : afterEvent s.nextPins s = s := by simp [afterEvent, hrst, htu]
    have hsame := sameEngine_step hstep
    rw [hevent] at hsame
    exact hsame.out c
  · rw [observe_eq] at hobs
    split at hobs
    · cases hobs
    · cases hobs
      exact ⟨rfl, rfl, rfl⟩

/-- No level reaches the last tick of a slot: a high line has a tick left (R127). -/
theorem pos_lt_of_out {s : State} {c : Channel} (h : out s c = true) : s.pos.toNat < 15 := by
  obtain ⟨-, hpos⟩ := (out_iff s c).1 h
  omega

/-- At most one line is high: that of CH (R127). -/
theorem channel_eq_of_out {s t : State} {c d : Channel} (hch : t.ch = s.ch) (hc : out s c = true)
    (hd : out t d = true) : c = d := by
  obtain ⟨hc, -⟩ := (out_iff s c).1 hc
  obtain ⟨hd, -⟩ := (out_iff t d).1 hd
  exact Fin.ext (by rw [← hc, ← hd, hch])

/-- From a state with a high line a step without RESET keeps the channel. -/
theorem step_ch_of_out {s s' : State} {c : Channel} (h : out s c = true) (hrst : s.nextPins.rst = false)
    (hstep : step s = .next s') : s'.ch = s.ch := by
  rw [(sameEngine_step hstep).ch, afterEvent_of_not_rst hrst]
  split
  · exact engineStep_ch_of_pos_lt (pos_lt_of_out h)
  · rfl

/-- Settles O39: a high line is CH's, and CH stays at every edge that finds a line high. -/
theorem atMostOneLineHigh : Obligations.AtMostOneLineHigh := by
  refine ⟨fun s c d => channel_eq_of_out rfl, fun s c hpos => ?_, fun s s' c d hrst hstep ⟨hc, hc', _, hd'⟩ => ?_⟩
  · refine Bool.eq_false_iff.2 fun hout => absurd (pos_lt_of_out hout) ?_
    rw [hpos]
    decide
  · obtain rfl : c = d := channel_eq_of_out (step_ch_of_out hc hrst hstep) hc hd'
    rw [hc'] at hd'
    cases hd'

/-! ### The frame position (R175) -/

theorem SameEngine.framePosition {s t : State} (h : SameEngine s t) : s.framePosition = t.framePosition := by
  simp only [State.framePosition, h.snapTick, h.ch, h.pos, h.sub]

theorem SameEngine.atFrameStart {s t : State} (h : SameEngine s t) (ht : t.AtFrameStart) : s.AtFrameStart := by
  rwa [State.AtFrameStart, h.ch, h.pos, h.sub]

theorem State.AtFrameStart.framePosition_eq_zero {s : State} (h : s.AtFrameStart) : s.framePosition = 0 := by
  obtain ⟨hch, hpos, hsub⟩ := h
  simp [State.framePosition_eq, hch, hpos, hsub]

theorem State.KeepsSnapshotOf.frameLength {t s : State} (h : t.KeepsSnapshotOf s) : t.frameLength = s.frameLength := by
  rw [State.frameLength, h.2]
  rfl

/-- In a frame's last time unit a cycle takes the snapshot and begins the next frame (R123). -/
theorem State.WellFormed.afterEvent_of_lastTimeUnit {s : State} (h : s.WellFormed) {p : Pins} (hcount : p.ticks = true)
    (hend : s.framePosition + 1 = s.frameLength) :
    (afterEvent p s).HoldsSnapshotOf s ∧ (afterEvent p s).AtFrameStart := by
  have hrst : p.rst = false := by
    rw [Pins.ticks, Bool.and_eq_true, Bool.not_eq_true'] at hcount
    exact hcount.1
  rw [afterEvent_of_not_rst hrst, if_pos hcount]
  rcases h.engineStep with ⟨hmid, -⟩ | ⟨-, -, he⟩
  · omega
  · rw [he]
    exact ⟨⟨rfl, rfl⟩, rfl, rfl, rfl⟩

/-- In every other cycle without RESET the snapshot stays, and the position counts the cycle's time unit. -/
theorem State.WellFormed.afterEvent_within_frame {s : State} (h : s.WellFormed) {p : Pins} (hrst : p.rst = false)
    (hmid : ¬(p.ticks = true ∧ s.framePosition + 1 = s.frameLength)) :
    (afterEvent p s).KeepsSnapshotOf s ∧
      (afterEvent p s).framePosition = s.framePosition + if p.ticks then 1 else 0 := by
  rw [afterEvent_of_not_rst hrst]
  cases hcount : p.ticks with
  | false => exact ⟨⟨rfl, rfl⟩, rfl⟩
  | true =>
    rcases h.engineStep with ⟨-, hpos, hlv, htick, -⟩ | ⟨hend, -⟩
    · exact ⟨⟨hlv, htick⟩, hpos⟩
    · exact absurd ⟨hcount, hend⟩ hmid

/-- Settles O34: by what a cycle does to the engine in a frame's last time unit, in a reset cycle and in any other. -/
theorem snapshotOnlyAtTheFrameEnd : Obligations.SnapshotOnlyAtTheFrameEnd := by
  intro s s' _ hwf hstep
  have hsame := sameEngine_step hstep
  refine ⟨fun hcount hend => ?_, fun hrst => ?_, fun hrst hmid => ?_⟩
  · obtain ⟨hholds, hstart⟩ := hwf.afterEvent_of_lastTimeUnit hcount hend
    obtain ⟨hlv, htick⟩ := hsame.keepsSnapshotOf.holds hholds
    exact ⟨hlv, htick, hsame.atFrameStart hstart⟩
  · have hevent : afterEvent s.nextPins s = resetElements s := by simp [afterEvent, hrst]
    rw [hevent] at hsame
    exact ⟨hsame.snapLv, hsame.snapTick, hsame.ch, hsame.pos, hsame.sub⟩
  · obtain ⟨hkeeps, hpos⟩ := hwf.afterEvent_within_frame hrst hmid
    obtain ⟨hlv, htick⟩ := hsame.keepsSnapshotOf.trans hkeeps
    exact ⟨hlv, htick, hsame.framePosition.trans hpos⟩

/-! ### Runs as a fold of cycles -/

/-- One cycle of a run: the cycle itself, and the count of the model's own counter. -/
def afterCycle (s : State) (p : Pins) : State := cycleState p { s with cycle := s.cycle + 1 }

/-- The state that the run over these cycles leaves. -/
def afterCycles (ps : List Pins) (s : State) : State := ps.foldl afterCycle (s.withProgram [])

/-- A run over one cycle more: the cycle, from the state that the run over the others leaves. -/
theorem afterCycles_concat (ps : List Pins) (q : Pins) (s : State) :
    afterCycles (ps ++ [q]) s = afterCycle (afterCycles ps s) q := List.foldl_concat ..

/-- Once a RESET has happened, the run over any cycles completes (R180). -/
theorem runOn_eq_afterCycles (ps : List Pins) {s : State} (h : s.resetSeen = true) :
    runOn ps s = .next (afterCycles ps s) := by
  induction ps generalizing s with
  | nil => exact runOn_nil s
  | cons p ps ih =>
    have hprogram : (afterCycle s p).withProgram [] = afterCycle (s.withProgram []) p :=
      (cycleState_withProgram p { s with cycle := s.cycle + 1 } []).symm
    have hseen : (afterCycle s p).resetSeen = true := cycleState_resetSeen p (s := { s with cycle := s.cycle + 1 }) h
    calc runOn (p :: ps) s
      _ = runOn ps (afterCycle s p) := runOn_cons (.inl h)
      _ = .next (afterCycles ps (afterCycle s p)) := ih hseen
      _ = .next (afterCycles (p :: ps) s) := by rw [afterCycles, hprogram]; rfl

/-- The engine after a cycle of a run is that after the cycle's port event. -/
theorem sameEngine_afterCycle (s : State) (p : Pins) : SameEngine (afterCycle s p) (afterEvent p s) :=
  sameEngine_cycleState_inputs p s s.inputs (s.cycle + 1)

theorem noReset_concat {ps : List Pins} {q : Pins} : NoReset (ps ++ [q]) ↔ NoReset ps ∧ q.rst = false := by
  simp [NoReset, or_imp, forall_and]

theorem timeUnits_concat (ps : List Pins) (q : Pins) :
    timeUnits (ps ++ [q]) = timeUnits ps + if q.ticks then 1 else 0 := by
  simp [timeUnits, List.countP_append, List.countP_singleton]

/-! ### Idle cycles (R124) -/

theorem afterEvent_of_not_ticks {p : Pins} (hrst : p.rst = false) (hcount : p.ticks = false) (s : State) :
    afterEvent p s = s := by
  simp [afterEvent_of_not_rst hrst, hcount]

/-- Cycles without a time unit and without RESET leave the engine as it is, whatever their commands are. -/
theorem sameEngine_afterCycles_of_no_timeUnits (ps : List Pins) (s : State) (hnr : NoReset ps)
    (hcount : timeUnits ps = 0) : SameEngine (afterCycles ps s) s := by
  induction ps using List.reverseRecOn with
  | nil => exact ⟨rfl, rfl, rfl, rfl, rfl⟩
  | append_singleton ps q ih =>
    obtain ⟨hps, hq⟩ := noReset_concat.1 hnr
    rw [timeUnits_concat, Nat.add_eq_zero_iff] at hcount
    obtain ⟨hbefore, hlast⟩ := hcount
    rw [afterCycles_concat]
    have hcycle := sameEngine_afterCycle (afterCycles ps s) q
    rw [afterEvent_of_not_ticks hq (by simpa using hlast)] at hcycle
    exact hcycle.trans (ih hps hbefore)

/-- Such cycles without a bus word leave every element of state: they set the read data to 0, take their input signals
and count. -/
theorem afterCycles_of_idle (ps : List Pins) (s : State) (hnr : NoReset ps) (hcount : timeUnits ps = 0)
    (hbus : ∀ p ∈ ps, p.busValid = false) :
    ∃ v, afterCycles ps s = { s with rdata := v, inputs := [], cycle := s.cycle + ps.length } := by
  induction ps using List.reverseRecOn with
  | nil => exact ⟨s.rdata, rfl⟩
  | append_singleton ps q ih =>
    obtain ⟨hps, hq⟩ := noReset_concat.1 hnr
    rw [timeUnits_concat, Nat.add_eq_zero_iff] at hcount
    obtain ⟨hbefore, hlast⟩ := hcount
    obtain ⟨v, hv⟩ := ih hps hbefore fun p hp => hbus p (List.mem_append_left _ hp)
    have hnone : q.accesses = false := by rw [Pins.accesses, hbus q (by simp), Bool.false_and]
    refine ⟨0, ?_⟩
    rw [afterCycles_concat, hv, afterCycle, cycleState_of_not_accesses hnone,
      afterEvent_of_not_ticks hq (by simpa using hlast), List.length_append]
    rfl

/-- Settles O35: by induction on the cycles, from the last of them. -/
theorem idleHoldsTheEngine : Obligations.IdleHoldsTheEngine := by
  refine ⟨by decide, fun s => rfl, fun ps s hseen hnr hcount => ⟨_, runOn_eq_afterCycles ps hseen, ?_⟩,
    fun ps s hseen hnr hcount hbus => ⟨_, runOn_eq_afterCycles ps hseen, ?_⟩⟩
  · have h := sameEngine_afterCycles_of_no_timeUnits ps s hnr hcount
    exact ⟨h.snapLv, h.snapTick, h.ch, h.pos, h.sub, h.out⟩
  · obtain ⟨v, hv⟩ := afterCycles_of_idle ps s hnr hcount hbus
    rw [hv]

/-! ### The place in the frame, as numbers (R121, R128) -/

/-- A legal state's position, divided by the length of a slot: the slot, and the offset in it. -/
theorem State.WellFormed.slot_of_framePosition {s : State} (h : s.WellFormed) :
    s.framePosition / (16 * s.snapTick.toNat) = s.ch.toNat ∧
      s.framePosition % (16 * s.snapTick.toNat) = s.snapTick.toNat * s.pos.toNat + s.sub.toNat := by
  have hsub := h.subBelowTick
  have hpos : s.snapTick.toNat * s.pos.toNat ≤ s.snapTick.toNat * 15 := Nat.mul_le_mul_left _ (by omega)
  refine (Nat.div_mod_unique (by omega)).2 ⟨?_, by omega⟩
  rw [State.framePosition_eq]
  omega

/-- The offset in the slot, divided by the length of a tick: the tick, and the time unit in it. -/
theorem State.WellFormed.tick_of_framePosition {s : State} (h : s.WellFormed) :
    s.framePosition % (16 * s.snapTick.toNat) / s.snapTick.toNat = s.pos.toNat ∧
      s.framePosition % s.snapTick.toNat = s.sub.toNat := by
  have hsub := h.subBelowTick
  obtain ⟨-, hslot⟩ := h.slot_of_framePosition
  rw [← Nat.mod_mod_of_dvd s.framePosition (Nat.dvd_mul_left s.snapTick.toNat 16), hslot]
  exact (Nat.div_mod_unique (by omega)).2 ⟨Nat.add_comm _ _, hsub⟩

/-- A legal state's lines by its position (R128): POS is below a level exactly where the offset in the slot is below
that many ticks. -/
theorem State.WellFormed.out_iff_framePosition {s : State} (h : s.WellFormed) (c : Channel) :
    out s c = true ↔ c.val = s.framePosition / (16 * s.snapTick.toNat) ∧
      s.framePosition % (16 * s.snapTick.toNat) < (s.snapLv.get c).toNat * s.snapTick.toNat := by
  have hsub := h.subBelowTick
  rw [out_iff, h.slot_of_framePosition.1, ← Nat.div_lt_iff_lt_mul (by omega), h.tick_of_framePosition.1, eq_comm]

/-! ### Runs within a frame (R128) -/

/-- `t` is a legal state `n` time units after the start of the frame that `s` is in. -/
structure State.InFrameOf (t s : State) (n : Nat) : Prop where
  wellFormed : t.WellFormed
  keeps : t.KeepsSnapshotOf s
  position : t.framePosition = n

/-- The cycle of a run keeps the legal states. -/
theorem State.WellFormed.afterCycle {s : State} (h : s.WellFormed) (p : Pins) : (afterCycle s p).WellFormed :=
  cycleState_wellFormed (.inr (h.of_engine_eq rfl rfl rfl h.gridFreq))

/-- Cycles that do not count to the frame's end keep its snapshot, and the position counts their time units. By
induction on the cycles, from the last of them; it does not matter which commands they carry. -/
theorem inFrameOf_afterCycles (ps : List Pins) {s : State} (hwf : s.WellFormed) (hnr : NoReset ps)
    (hlt : s.framePosition + timeUnits ps < s.frameLength) :
    (afterCycles ps s).InFrameOf s (s.framePosition + timeUnits ps) := by
  induction ps using List.reverseRecOn with
  | nil => exact ⟨hwf.of_engine_eq rfl rfl rfl hwf.gridFreq, ⟨rfl, rfl⟩, rfl⟩
  | append_singleton ps q ih =>
    obtain ⟨hps, hq⟩ := noReset_concat.1 hnr
    rw [timeUnits_concat] at hlt ⊢
    have h := ih hps (by omega)
    have hmid : ¬(q.ticks = true ∧ (afterCycles ps s).framePosition + 1 = (afterCycles ps s).frameLength) := by
      rintro ⟨hcount, hend⟩
      rw [h.position, h.keeps.frameLength] at hend
      rw [if_pos hcount] at hlt
      omega
    obtain ⟨hkeeps, hpos⟩ := h.wellFormed.afterEvent_within_frame hq hmid
    have hsame := sameEngine_afterCycle (afterCycles ps s) q
    rw [afterCycles_concat]
    refine ⟨h.wellFormed.afterCycle q, hsame.keepsSnapshotOf.trans (hkeeps.trans h.keeps), ?_⟩
    rw [hsame.framePosition, hpos, h.position, Nat.add_assoc]

/-- Where a run begins with a frame, the position counts its time units. -/
theorem State.AtFrameStart.inFrameOf_afterCycles {s : State} (hstart : s.AtFrameStart) (hwf : s.WellFormed)
    {ps : List Pins} (hnr : NoReset ps) (hlt : timeUnits ps < 48 * s.snapTick.toNat) :
    (afterCycles ps s).InFrameOf s (timeUnits ps) := by
  have h := Machine.inFrameOf_afterCycles ps hwf hnr
  rw [hstart.framePosition_eq_zero, Nat.zero_add] at h
  exact h hlt

/-- The counters of a state `n` time units into the frame (R128). -/
theorem State.InFrameOf.place {t s : State} {n : Nat} (h : t.InFrameOf s n) :
    t.ch.toNat = n / (16 * s.snapTick.toNat) ∧ t.pos.toNat = n % (16 * s.snapTick.toNat) / s.snapTick.toNat ∧
      t.sub.toNat = n % s.snapTick.toNat := by
  obtain ⟨hwf, ⟨-, htick⟩, rfl⟩ := h
  obtain ⟨hch, -⟩ := hwf.slot_of_framePosition
  obtain ⟨hpos, hsub⟩ := hwf.tick_of_framePosition
  rw [← htick]
  exact ⟨hch.symm, hpos.symm, hsub.symm⟩

/-- The lines of a state `n` time units into the frame (R128). -/
theorem State.InFrameOf.out_iff {t s : State} {n : Nat} (h : t.InFrameOf s n) (c : Channel) :
    out t c = true ↔ c.val = n / (16 * s.snapTick.toNat) ∧
      n % (16 * s.snapTick.toNat) < (s.snapLv.get c).toNat * s.snapTick.toNat := by
  obtain ⟨hwf, ⟨hlv, htick⟩, rfl⟩ := h
  rw [← htick, ← hlv]
  exact hwf.out_iff_framePosition c

/-- Settles O41: the run stays in the frame, at the position its time units count, which determines the place. -/
theorem frameLaw : Obligations.FrameLaw := by
  intro ps s hseen hwf hstart hnr hlt
  have h := hstart.inFrameOf_afterCycles hwf hnr hlt
  obtain ⟨hch, hpos, hsub⟩ := h.place
  exact ⟨_, runOn_eq_afterCycles ps hseen, hch, hpos, hsub, h.keeps.1, h.keeps.2, h.out_iff⟩

/-- A state at a multiple of a slot's length is at the start of that slot (R129). -/
theorem State.InFrameOf.slotStart {t s : State} {c : Nat} (h : t.InFrameOf s (16 * s.snapTick.toNat * c))
    (hwf : s.WellFormed) :
    t.ch.toNat = c ∧ t.pos = 0 ∧ t.sub = 0 := by
  obtain ⟨hch, hpos, hsub⟩ := h.place
  have htick := hwf.subBelowTick
  refine ⟨hch.trans (Nat.mul_div_cancel_left c (by omega)), BitVec.eq_of_toNat_eq ?_, BitVec.eq_of_toNat_eq ?_⟩
  · rw [hpos, Nat.mul_mod_right, Nat.zero_div]
    rfl
  · rw [hsub, Nat.mul_comm 16, Nat.mul_assoc, Nat.mul_mod_right]
    rfl

/-- Settles O42: before the last cycle the run is in the frame, at the position its time units count; the cycle that
counts the 48·T-th finds the frame's last position. -/
theorem frameLastsExactly48Ticks : Obligations.FrameLastsExactly48Ticks := by
  intro ps q s hseen hwf hstart hnr hcount
  obtain ⟨hps, -⟩ := noReset_concat.1 hnr
  have htotal : timeUnits (ps ++ [q]) = timeUnits ps + 1 := by rw [timeUnits_concat, if_pos hcount]
  have hrun : ∀ qs, runOn qs s = .next (afterCycles qs s) := fun qs => runOn_eq_afterCycles qs hseen
  refine ⟨fun hend => ?_, fun hlt => ⟨_, hrun _, ?_⟩, fun c _ hc hslot => ⟨_, hrun _, ?_⟩⟩
  · have h := hstart.inFrameOf_afterCycles hwf hps (by omega)
    have hlast : (afterCycles ps s).framePosition + 1 = (afterCycles ps s).frameLength := by
      rw [h.position, h.keeps.frameLength, ← htotal, hend, State.frameLength_eq]
    obtain ⟨hholds, hnext⟩ := h.wellFormed.afterEvent_of_lastTimeUnit hcount hlast
    have hsame := sameEngine_afterCycle (afterCycles ps s) q
    obtain ⟨hlv, htick⟩ := hsame.keepsSnapshotOf.holds hholds
    refine ⟨_, _, hrun ps, hrun _, ?_⟩
    rw [afterCycles_concat]
    exact ⟨hsame.atFrameStart hnext, hlv, htick⟩
  · have h := hstart.inFrameOf_afterCycles hwf hnr hlt
    intro hstart'
    have hzero := h.position.symm.trans hstart'.framePosition_eq_zero
    omega
  · have htick := hwf.subBelowTick
    have hle : 16 * s.snapTick.toNat * c ≤ 16 * s.snapTick.toNat * 2 := Nat.mul_le_mul_left _ hc
    have h := hstart.inFrameOf_afterCycles hwf hnr (by omega)
    rw [hslot] at h
    exact h.slotStart hwf

/-! ### The duty cycle (R130) -/

/-- To be in block `c` of length `m`, among its first `l`, is to be in one interval. -/
theorem div_eq_and_mod_lt_iff {m l : Nat} (hl : l < m) (c k : Nat) :
    (c = k / m ∧ k % m < l) ↔ m * c ≤ k ∧ k < m * c + l := by
  have hk := Nat.div_add_mod k m
  constructor
  · rintro ⟨rfl, hlt⟩
    omega
  · rintro ⟨hge, hlt⟩
    have hdiv : k / m = c := by
      rw [Nat.div_eq_iff (by omega), Nat.mul_comm]
      omega
    rw [hdiv] at hk
    exact ⟨hdiv.symm, by omega⟩

/-- An interval of length `l` that lies below `n` holds `l` numbers below `n`. -/
theorem countP_range_interval {a l n : Nat} (h : a + l ≤ n) :
    (List.range n).countP (fun k => decide (a ≤ k ∧ k < a + l)) = l := by
  obtain ⟨b, rfl⟩ := Nat.exists_eq_add_of_le h
  change Nat.count (fun k => a ≤ k ∧ k < a + l) (a + l + b) = l
  rw [Nat.count_add, Nat.count_add, Nat.count_iff_forall_not.2 fun m hm => by omega,
    Nat.count_iff_forall.2 fun m hm => by omega, Nat.count_iff_forall_not.2 fun m hm => by omega]
  omega

/-- A level takes at most 15 of its slot's 16 ticks (R131). -/
theorem level_ticks_add_tick_le_slot (l : Level) (T : Nat) : l.toNat * T + T ≤ 16 * T := by
  have := Nat.mul_le_mul_right T (show l.toNat ≤ 15 by omega)
  omega

theorem timeUnits_replicate (k : Nat) : timeUnits (List.replicate k Pins.timeUnit) = k := by
  rw [timeUnits, List.countP_replicate, if_pos (by decide)]

theorem noReset_replicate (k : Nat) : NoReset (List.replicate k Pins.timeUnit) := by
  intro p hp
  rw [List.eq_of_mem_replicate hp]
  decide

/-- The line of channel `c` at the `k`-th time unit of the frame is high in one interval (R130). -/
theorem State.AtFrameStart.out_afterTimeUnits_iff {s : State} (hstart : s.AtFrameStart) (hwf : s.WellFormed) {k : Nat}
    (hk : k < 48 * s.snapTick.toNat) (c : Channel) :
    out (afterCycles (List.replicate k Pins.timeUnit) s) c = true ↔
      16 * s.snapTick.toNat * c.val ≤ k ∧
        k < 16 * s.snapTick.toNat * c.val + (s.snapLv.get c).toNat * s.snapTick.toNat := by
  have h := hstart.inFrameOf_afterCycles hwf (noReset_replicate k) (by rwa [timeUnits_replicate])
  rw [timeUnits_replicate] at h
  have htick := hwf.subBelowTick
  have hlevel := level_ticks_add_tick_le_slot (s.snapLv.get c) s.snapTick.toNat
  rw [h.out_iff, div_eq_and_mod_lt_iff (by omega)]

/-- Settles O43: the line is high in an interval of the frame, which is as long as the level says. -/
theorem dutyCycle : Obligations.DutyCycle := by
  intro s c hseen hwf hstart
  have hlevel := level_ticks_add_tick_le_slot (s.snapLv.get c) s.snapTick.toNat
  have hrun : ∀ k, runOn (List.replicate k Pins.timeUnit) s = .next (afterCycles (List.replicate k Pins.timeUnit) s) :=
    fun k => runOn_eq_afterCycles _ hseen
  refine ⟨fun k hk => ⟨_, hrun k, hstart.out_afterTimeUnits_iff hwf hk c⟩, ?_, hlevel⟩
  have hslot : 16 * s.snapTick.toNat * c.val ≤ 16 * s.snapTick.toNat * 2 := Nat.mul_le_mul_left _ (by omega)
  rw [← countP_range_interval (a := 16 * s.snapTick.toNat * c.val) (l := (s.snapLv.get c).toNat * s.snapTick.toNat)
    (n := 48 * s.snapTick.toNat) (by omega)]
  refine List.countP_congr fun k hk => ?_
  rw [hrun k, decide_eq_true_iff]
  exact hstart.out_afterTimeUnits_iff hwf (List.mem_range.1 hk) c

end Sys2Proof.Machine

namespace Sys2Proof.Machine

/-! ### Every cycle completes (R150, R180) -/

/-- A step has two answers (R38): refused where no RESET has happened and none happens in its cycle, else its state. -/
theorem step_eq (s : State) :
    step s = if s.nextPins.rst = false ∧ s.resetSeen = false then .refused .beforeFirstReset
      else .next (cycleState s.nextPins s.takeInput) :=
  cycle_eq s.nextPins s.takeInput

theorem step_refused_iff (s : State) :
    step s = .refused .beforeFirstReset ↔ s.resetSeen = false ∧ s.nextPins.rst = false := by
  rw [step_eq]
  split
  case isTrue h => exact iff_of_true rfl h.symm
  case isFalse h => exact iff_of_false nofun fun hboth => h hboth.symm

/-- Neither of a step's answers is a fault: the block has no exception (R150). -/
theorem step_ne_fault (s : State) (f : Fault) : step s ≠ .fault f := by
  rw [step_eq]
  split
  · nofun
  · nofun

/-- Settles O7: a cycle of a run that has begun answers its state, and no cycle takes the RESET back. -/
theorem everyCycleCompletes : Obligations.EveryCycleCompletes := by
  refine ⟨fun s hseen => ?_, step_ne_fault, step_refused_iff⟩
  have hbegun : s.takeInput.resetSeen = true := hseen
  exact ⟨cycleState s.nextPins s.takeInput, cycle_next hbegun, cycleState_resetSeen _ hbegun⟩

end Sys2Proof.Machine

namespace Sys2Proof

/-! ### The signals that carry a command (R60, R61) -/

@[simp] theorem busWordOf_addr (we : Bool) (a : BusAddr) (d : BusData) : (busWordOf we a d).extractLsb' 32 2 = a := by
  apply BitVec.eq_of_getLsbD_eq
  intro i hi
  rw [BitVec.getLsbD_extractLsb', busWordOf_getLsbD, if_neg (by omega), if_pos (by omega), Nat.add_sub_cancel_left,
    decide_eq_true hi, Bool.true_and]

/-- No two bus words are the same command: the ignored fields are operands (log entry 12). -/
theorem decodeBus_injective : Function.Injective decodeBus := by
  intro txn txn' h
  have hword : RawWord.bus txn = .bus txn' := by
    rw [← encode_decode (.bus txn), decode, h]
    exact encode_decode (.bus txn')
  exact RawWord.bus.inj hword

/-- A cycle carries a register's command exactly where its transaction has the command's fields (R61, R66). -/
theorem Pins.command_eq_regInstr_iff {p : Pins} {r : Reg} {we : Bool} {data : BusData} :
    p.command = some (r.instr we data) ↔
      p.busValid = true ∧ p.busWe = we ∧ p.busAddr = r.addr ∧ p.busWdata = data := by
  constructor
  · intro h
    cases hvalid : p.busValid with
    | false =>
      rw [Pins.command_none hvalid] at h
      cases h
    | true =>
      rw [Pins.command_some hvalid, Option.some_inj, ← decodeBus_busWordOf] at h
      have hword := decodeBus_injective h
      refine ⟨rfl, ?_, ?_, ?_⟩
      · simpa only [busWordOf_we] using congrArg (·.getLsbD 34) hword
      · simpa only [busWordOf_addr] using congrArg (·.extractLsb' 32 2) hword
      · simpa only [busWordOf_data] using congrArg (·.extractLsb' 0 32) hword
  · rintro ⟨hvalid, hwe, haddr, hdata⟩
    rw [Pins.command_some hvalid, hwe, haddr, hdata, decodeBus_busWordOf]

/-- A cycle carries some write of a register exactly where its transaction is a write of the register's address. -/
theorem Pins.exists_write_iff {p : Pins} {r : Reg} :
    (∃ data, p.command = some (r.instr true data)) ↔
      (p.busValid && p.busWe && decide (p.busAddr = r.addr)) = true := by
  simp [Pins.command_eq_regInstr_iff, and_assoc]

namespace Machine

/-! ### What a cycle leaves in the host registers (R105, R107) -/

theorem afterCycle_lv_of_write {p : Pins} {data : BusData} (hrst : p.rst = false)
    (hcmd : p.command = some (.wrLevels data)) (s : State) : (afterCycle s p).lv = levelsOfData data := by
  obtain ⟨hvalid, hwe, haddr, rfl⟩ := (Pins.command_eq_regInstr_iff (r := .levels) (we := true)).1 hcmd
  rw [afterCycle, cycleState_lv]
  simp [hrst, hvalid, hwe, haddr, Reg.addr]

theorem afterCycle_freq_of_write {p : Pins} {data : BusData} (hrst : p.rst = false)
    (hcmd : p.command = some (.wrFreqlv data)) (s : State) : (afterCycle s p).freq = levelToFrequencySat data := by
  obtain ⟨hvalid, hwe, haddr, rfl⟩ := (Pins.command_eq_regInstr_iff (r := .freqlv) (we := true)).1 hcmd
  rw [afterCycle, cycleState_freq]
  simp [hrst, hvalid, hwe, haddr, Reg.addr]

theorem afterCycle_lv_of_not_write {p : Pins} (hrst : p.rst = false) (hcmd : ¬p.WritesLevels) (s : State) :
    (afterCycle s p).lv = s.lv := by
  have hnone : ¬(p.busValid && p.busWe && decide (p.busAddr = 0)) = true :=
    mt (Pins.exists_write_iff (r := .levels)).2 hcmd
  rw [afterCycle, cycleState_lv, hrst, if_neg Bool.false_ne_true, if_neg hnone]

theorem afterCycle_freq_of_not_write {p : Pins} (hrst : p.rst = false) (hcmd : ¬p.WritesFreqlv) (s : State) :
    (afterCycle s p).freq = s.freq := by
  have hnone : ¬(p.busValid && p.busWe && decide (p.busAddr = 2)) = true :=
    mt (Pins.exists_write_iff (r := .freqlv)).2 hcmd
  rw [afterCycle, cycleState_freq, hrst, if_neg Bool.false_ne_true, if_neg hnone]

/-- A cycle writes one register at most. -/
theorem not_writesFreqlv_of_wrLevels {p : Pins} {data : BusData} (h : p.command = some (.wrLevels data)) :
    ¬p.WritesFreqlv := by
  rintro ⟨w, hw⟩
  rw [h] at hw
  cases hw

theorem not_writesLevels_of_wrFreqlv {p : Pins} {data : BusData} (h : p.command = some (.wrFreqlv data)) :
    ¬p.WritesLevels := by
  rintro ⟨w, hw⟩
  rw [h] at hw
  cases hw

/-! ### Runs in parts -/

/-- A run over one cycle and more: the run over the rest, from the state after the cycle. -/
theorem afterCycles_cons (p : Pins) (ps : List Pins) (s : State) :
    afterCycles (p :: ps) s = afterCycles ps (afterCycle s p) := by
  have hprogram : afterCycle (s.withProgram []) p = (afterCycle s p).withProgram [] :=
    cycleState_withProgram p { s with cycle := s.cycle + 1 } []
  rw [afterCycles, List.foldl_cons, hprogram, afterCycles]

/-- A run in two parts: the second from the state that the first leaves. -/
theorem afterCycles_append (ps qs : List Pins) (s : State) :
    afterCycles (ps ++ qs) s = afterCycles qs (afterCycles ps s) := by
  induction ps generalizing s with
  | nil => rfl
  | cons p ps ih => rw [List.cons_append, afterCycles_cons, afterCycles_cons, ih]

/-- The run over any cycles completes from a state after a RESET, or if its first cycle is one (R38, R180). -/
theorem runOn_cons_eq_afterCycles {p : Pins} {s : State} (h : s.resetSeen = true ∨ p.rst = true) (ps : List Pins) :
    runOn (p :: ps) s = .next (afterCycles (p :: ps) s) := by
  have hseen : (afterCycle s p).resetSeen = true := by
    obtain ⟨-, -, -, -, -, hseen, -⟩ := cycleState_engine p { s with cycle := s.cycle + 1 }
    rw [afterCycle, hseen, (afterEvent_own p _).2.2, Bool.or_eq_true]
    exact h.symm
  rw [afterCycles_cons]
  exact (runOn_cons h).trans (runOn_eq_afterCycles ps hseen)

/-- What no cycle of a run changes, the run leaves as it was. -/
theorem afterCycles_keeps {α : Type} (f : State → α) {ps : List Pins} (hload : ∀ s, f (s.withProgram []) = f s)
    (hcycle : ∀ q ∈ ps, ∀ s, f (afterCycle s q) = f s) (s : State) : f (afterCycles ps s) = f s := by
  induction ps generalizing s with
  | nil => exact hload s
  | cons p ps ih =>
    rw [afterCycles_cons, ih (fun q hq => hcycle q (List.mem_cons_of_mem p hq)), hcycle p List.mem_cons_self]

theorem noReset_cons {p : Pins} {ps : List Pins} : NoReset (p :: ps) ↔ p.rst = false ∧ NoReset ps := by
  simp [NoReset]

/-- LV holds the last write of LEVELS, whatever else the cycles after it do (R49, R177). -/
theorem afterCycles_lv_of_write {p : Pins} {ps : List Pins} {data : BusData} (hnr : NoReset (p :: ps))
    (hcmd : p.command = some (.wrLevels data)) (hps : ∀ q ∈ ps, ¬q.WritesLevels) (s : State) :
    (afterCycles (p :: ps) s).lv = levelsOfData data := by
  obtain ⟨hp, hrest⟩ := noReset_cons.1 hnr
  rw [afterCycles_cons, ← afterCycle_lv_of_write hp hcmd s]
  exact afterCycles_keeps State.lv (fun _ => rfl) (fun q hq => afterCycle_lv_of_not_write (hrest q hq) (hps q hq)) _

/-- FREQ holds the frequency of the last write of FREQLV, whatever else the cycles after it do (R49, R177). -/
theorem afterCycles_freq_of_write {p : Pins} {ps : List Pins} {data : BusData} (hnr : NoReset (p :: ps))
    (hcmd : p.command = some (.wrFreqlv data)) (hps : ∀ q ∈ ps, ¬q.WritesFreqlv) (s : State) :
    (afterCycles (p :: ps) s).freq = levelToFrequencySat data := by
  obtain ⟨hp, hrest⟩ := noReset_cons.1 hnr
  rw [afterCycles_cons, ← afterCycle_freq_of_write hp hcmd s]
  exact afterCycles_keeps State.freq (fun _ => rfl) (fun q hq => afterCycle_freq_of_not_write (hrest q hq) (hps q hq)) _

/-! ### The next snapshot (R175) -/

/-- Where the last of some cycles counts the time unit that ends the frame, those before it keep the frame's snapshot,
and it takes the next one from the registers as they leave them. -/
theorem holdsSnapshotOf_at_frameEnd {ps : List Pins} {q : Pins} {s : State} (hwf : s.WellFormed) (hnr : NoReset ps)
    (hq : q.ticks = true) (hcount : timeUnits (ps ++ [q]) = s.frameLength - s.framePosition) :
    (afterCycles ps s).KeepsSnapshotOf s ∧ (afterCycles (ps ++ [q]) s).HoldsSnapshotOf (afterCycles ps s) ∧
      (afterCycles (ps ++ [q]) s).AtFrameStart := by
  rw [timeUnits_concat, if_pos hq] at hcount
  have h := inFrameOf_afterCycles ps hwf hnr (by omega)
  have hlast : (afterCycles ps s).framePosition + 1 = (afterCycles ps s).frameLength := by
    rw [h.position, h.keeps.frameLength]
    omega
  obtain ⟨hholds, hstart⟩ := h.wellFormed.afterEvent_of_lastTimeUnit hq hlast
  have hsame := sameEngine_afterCycle (afterCycles ps s) q
  rw [afterCycles_concat]
  exact ⟨h.keeps, hsame.keepsSnapshotOf.holds hholds, hsame.atFrameStart hstart⟩

/-- What a write in cycle `p` leaves in a snapshot of the registers after `p` and the cycles `ps` without another. -/
theorem State.HoldsSnapshotOf.written {p : Pins} {ps : List Pins} {s t : State}
    (h : t.HoldsSnapshotOf (afterCycles (p :: ps) s)) (hnr : NoReset (p :: ps)) :
    (∀ data, p.command = some (.wrLevels data) → (∀ r ∈ ps, ¬r.WritesLevels) → t.snapLv = levelsOfData data) ∧
      (∀ data, p.command = some (.wrFreqlv data) → (∀ r ∈ ps, ¬r.WritesFreqlv) →
        t.snapTick = tickDuration (levelToFrequencySat data)) := by
  obtain ⟨hlv, htick⟩ := h
  refine ⟨fun data hcmd hps => ?_, fun data hcmd hps => ?_⟩
  · rw [hlv, afterCycles_lv_of_write hnr hcmd hps]
  · rw [htick, afterCycles_freq_of_write hnr hcmd hps]

/-- A cycle that counts the frame's last time unit, with whatever command, begins the next frame with the snapshot of
the registers before it. -/
theorem afterCycle_of_lastTimeUnit {p : Pins} {s : State} (hwf : s.WellFormed) (hcount : p.ticks = true)
    (hend : s.framePosition + 1 = s.frameLength) :
    (afterCycle s p).HoldsSnapshotOf s ∧ (afterCycle s p).AtFrameStart := by
  obtain ⟨hholds, hstart⟩ := hwf.afterEvent_of_lastTimeUnit hcount hend
  have hsame := sameEngine_afterCycle s p
  exact ⟨hsame.keepsSnapshotOf.holds hholds, hsame.atFrameStart hstart⟩

/-- Settles O45: the cycle that ends the frame takes the registers with the write in them. A write in that very cycle is
too late for it, and stands at the start of a frame whose end takes it. -/
theorem writesReachTheNextSnapshot : Obligations.WritesReachTheNextSnapshot := by
  refine ⟨fun p q ps s hseen hwf hnr hq hcount => ?_, fun p q ps s hseen hwf hnr hp hend hq hcount => ?_,
    fun s hwf => ?_⟩
  · obtain ⟨hps, -⟩ := noReset_concat.1 hnr
    obtain ⟨⟨hlv, htick⟩, hholds, hstart⟩ := holdsSnapshotOf_at_frameEnd hwf hps hq hcount
    exact ⟨_, _, runOn_eq_afterCycles _ hseen, runOn_eq_afterCycles _ hseen, hlv, htick, hstart, hholds.written hps⟩
  · obtain ⟨hps, -⟩ := noReset_concat.1 hnr
    obtain ⟨hold, hfirst⟩ := afterCycle_of_lastTimeUnit hwf hp hend
    have hframe : timeUnits (ps ++ [q]) = (afterCycle s p).frameLength - (afterCycle s p).framePosition := by
      rw [hfirst.framePosition_eq_zero, State.frameLength_eq, hold.2, hcount, Nat.sub_zero]
    obtain ⟨hkeeps, hholds, hstart⟩ := holdsSnapshotOf_at_frameEnd (hwf.afterCycle p) (noReset_cons.1 hps).2 hq hframe
    rw [← afterCycles_cons, ← afterCycles_cons] at hholds
    rw [← afterCycles_cons] at hkeeps hstart
    obtain ⟨hlv, htick⟩ := hkeeps.holds hold
    exact ⟨_, _, _, runOn_cons (.inl hseen), runOn_eq_afterCycles _ hseen, runOn_eq_afterCycles _ hseen,
      hold.1, hold.2, hlv, htick, hstart, hholds.written hps⟩
  · have hpos := hwf.framePosition_lt
    obtain ⟨-, htick⟩ := hwf.gridTick.bounds
    obtain ⟨-, hnext⟩ := hwf.gridFreq.isGridTick.bounds
    have hlen := s.frameLength_eq
    refine ⟨?_, ?_, ?_⟩ <;> omega

/-! ### A snapshot between two writes (R176) -/

/-- A cycle without a time unit leaves the engine as it is, whatever its command is. -/
theorem sameEngine_afterCycle_of_idle {p : Pins} (hrst : p.rst = false) (htu : p.tuEn = false) (s : State) :
    SameEngine (afterCycle s p) s := by
  have hsame := sameEngine_afterCycle s p
  rwa [afterEvent_of_not_ticks hrst (by simp [Pins.ticks, htu])] at hsame

/-- The frame's last time unit between two cycles without one: the new frame's snapshot is of the registers as the cycle
before it leaves them, and the cycle after it keeps that. -/
theorem holdsSnapshotOf_cycle_before {p q r : Pins} {s : State} (hwf : s.WellFormed) (hp : p.rst = false)
    (hr : r.rst = false) (hpIdle : p.tuEn = false) (hq : q.ticks = true) (hrIdle : r.tuEn = false)
    (hend : s.framePosition + 1 = s.frameLength) :
    (afterCycle (afterCycle (afterCycle s p) q) r).HoldsSnapshotOf (afterCycle s p) := by
  have hidle := sameEngine_afterCycle_of_idle hp hpIdle s
  have hend' : (afterCycle s p).framePosition + 1 = (afterCycle s p).frameLength := by
    rw [hidle.framePosition, hidle.keepsSnapshotOf.frameLength, hend]
  obtain ⟨hholds, -⟩ := afterCycle_of_lastTimeUnit (hwf.afterCycle p) hq hend'
  exact (sameEngine_afterCycle_of_idle hr hrIdle _).keepsSnapshotOf.holds hholds

/-- Settles O47: the snapshot takes the registers as the first write leaves them, which is one of the two new values;
the second write leaves the frame its snapshot. -/
theorem snapshotBetweenTwoWrites : Obligations.SnapshotBetweenTwoWrites := by
  intro p q r s data w hseen hwf hnr hp hq _ hend
  obtain ⟨hprst, hqrst, hrrst, -⟩ : p.rst = false ∧ q.rst = false ∧ r.rst = false ∧ NoReset [] := by
    simpa only [noReset_cons] using hnr
  have hticks : q.ticks = true := by simp [Pins.ticks, hqrst, hq]
  have hrun : runOn [p, q, r] s = .next ((afterCycle (afterCycle (afterCycle s p) q) r).withProgram []) := by
    rw [runOn_eq_afterCycles _ hseen, afterCycles_cons, afterCycles_cons, afterCycles_cons]
    rfl
  refine ⟨fun hlevels hfreqlv hr => ⟨_, hrun, ?_⟩, fun hfreqlv hlevels hr => ⟨_, hrun, ?_⟩⟩
  · obtain ⟨hlv, htick⟩ := holdsSnapshotOf_cycle_before hwf hprst hrrst hp hticks hr hend
    rw [afterCycle_lv_of_write hprst hlevels] at hlv
    rw [afterCycle_freq_of_not_write hprst (not_writesFreqlv_of_wrLevels hlevels)] at htick
    exact ⟨hlv, htick, afterCycle_freq_of_write hrrst hfreqlv _⟩
  · obtain ⟨hlv, htick⟩ := holdsSnapshotOf_cycle_before hwf hprst hrrst hp hticks hr hend
    rw [afterCycle_lv_of_not_write hprst (not_writesLevels_of_wrFreqlv hfreqlv)] at hlv
    rw [afterCycle_freq_of_write hprst hfreqlv] at htick
    exact ⟨hlv, htick, afterCycle_lv_of_write hrrst hlevels _⟩

/-! ### Reads after a write (R179) -/

/-- Settles O24: a read returns what its register holds, which is what the last write left. -/
theorem readsSeeTheLastWrite : Obligations.ReadsSeeTheLastWrite := by
  intro p ps s data d hseen hnr
  refine ⟨_, runOn_eq_afterCycles _ hseen, fun hcmd hps => ⟨_, exec_regInstr_read .levels d _, ?_⟩, fun hcmd hps => ?_⟩
  · change levelsWord (afterCycles (p :: ps) s).lv = _
    rw [afterCycles_lv_of_write hnr hcmd hps, levelsWord_levelsOfData]
  · have hfreq := afterCycles_freq_of_write hnr hcmd hps s
    obtain ⟨hmin, hmax⟩ := (onGrid_levelToFrequencySat data).bounds
    refine ⟨⟨_, exec_regInstr_read .freq d _, ?_⟩, _, exec_regInstr_read .tick d _, ?_⟩
    · change (readRegister _ .freq).toNat = _
      rw [readRegister_freq_toNat, hfreq, levelToFrequencySat_toNat_eq_min]
    · change (readRegister _ .tick).toNat = _
      rw [readRegister_tick_toNat, hfreq, tickDuration_toNat hmin hmax, levelToFrequencySat_toNat_eq_min]

/-! ### Around a reset (R170 to R172) -/

/-- One or more reset cycles leave the reset state, whatever else they carry; the model's own fields are the last
cycle's read data and the cycles counted. -/
theorem afterCycles_of_rst {p : Pins} {rs : List Pins} (h : ∀ r ∈ p :: rs, r.rst = true) (s : State) :
    ∃ v, afterCycles (p :: rs) s = { State.reset with rdata := v, cycle := s.cycle + (rs.length + 1) } := by
  induction rs generalizing p s with
  | nil =>
    refine ⟨cycleRdata p { s.withProgram [] with cycle := s.cycle + 1 }, ?_⟩
    exact cycleState_of_rst (h p List.mem_cons_self) _
  | cons q rs ih =>
    obtain ⟨v, hv⟩ := ih (fun r hr => h r (List.mem_cons_of_mem p hr)) (afterCycle s p)
    refine ⟨v, ?_⟩
    have hcycle : (afterCycle s p).cycle = s.cycle + 1 := by
      rw [afterCycle, cycleState_of_rst (h p List.mem_cons_self)]
      rfl
    rw [afterCycles_cons, hv, hcycle, List.length_cons, Nat.add_assoc, Nat.add_comm 1]

/-- Settles O5: RESET's effect is the model's own; in a cycle it is all that happens but the read, which is of the state
before the edge. -/
theorem resetReturnsEveryElement : Obligations.ResetReturnsEveryElement := by
  refine ⟨by decide, fun _ _ => rfl, fun ps p s hrst => ?_, fun p rest s r hin hrst haddr => ?_⟩
  · obtain ⟨v, hv⟩ := afterCycles_of_rst hrst s
    refine ⟨_, runOn_cons_eq_afterCycles (.inr (hrst p List.mem_cons_self)) ps, ?_⟩
    rw [hv]
  · have hread : readRegister { s with inputs := rest, cycle := s.cycle + 1 } r = readRegister s r :=
      readRegister_congr rfl rfl r
    refine ⟨_, (step_cons hin).trans (cycle_next_of_rst hrst), ?_⟩
    rw [cycleState_rdata, cycleRdata_of_busAddr haddr, hread]

/-- In the first frame after a RESET, line 0 is high for 15 ticks of 208 time units, and no other line is high before
the slot's end (R172). -/
theorem State.InFrameOf.out_of_reset {t s : State} {n : Nat} (h : t.InFrameOf s n) (hlv : s.snapLv = ⟨15, 15, 15⟩)
    (htick : s.snapTick = 208) (hn : n < 3328) (c : Channel) : out t c = decide (c = 0 ∧ n < 3120) := by
  have hlevel : (Levels.get ⟨15, 15, 15⟩ c).toNat = 15 := by revert c; decide
  have hT : (208 : Tick).toNat = 208 := rfl
  rw [Bool.eq_iff_iff, decide_eq_true_iff, h.out_iff, htick, hlv, hlevel, hT, Nat.div_eq_of_lt hn, Nat.mod_eq_of_lt hn,
    Fin.ext_iff]
  rfl

/-- After one or more reset cycles, the lines up to the end of the first slot. -/
theorem out_afterCycles_of_rst {p : Pins} {rs ps : List Pins} (hrst : ∀ r ∈ p :: rs, r.rst = true) (hnr : NoReset ps)
    (hn : timeUnits ps < 3328) (s : State) (c : Channel) :
    out (afterCycles (p :: rs ++ ps) s) c = decide (c = 0 ∧ timeUnits ps < 3120) := by
  obtain ⟨v, hv⟩ := afterCycles_of_rst hrst s
  have hsame : SameEngine (afterCycles (p :: rs) s) State.reset := by
    rw [hv]
    exact ⟨rfl, rfl, rfl, rfl, rfl⟩
  have hfreq : (afterCycles (p :: rs) s).freq = State.reset.freq := by rw [hv]
  have hwf : (afterCycles (p :: rs) s).WellFormed :=
    reset_wellFormed.of_engine_eq hsame.ch hsame.sub hsame.snapTick (hfreq ▸ reset_wellFormed.gridFreq)
  have hstart : (afterCycles (p :: rs) s).AtFrameStart := hsame.atFrameStart ⟨rfl, rfl, rfl⟩
  have hframe : timeUnits ps < 48 * (afterCycles (p :: rs) s).snapTick.toNat := by
    rw [hsame.snapTick]
    exact hn.trans (by decide)
  rw [afterCycles_append]
  exact (hstart.inFrameOf_afterCycles hwf hnr hframe).out_of_reset hsame.snapLv hsame.snapTick hn c

/-- Settles O44: in the first slot after a RESET the lines are those of line 0's 15 ticks; the first reset cycle itself
is observed before its edge. -/
theorem firstFrameAfterReset : Obligations.FirstFrameAfterReset := by
  intro p rs ps s hrst hnr
  have hbegun : s.resetSeen = true ∨ p.rst = true := .inr (hrst p List.mem_cons_self)
  have hrun : runOn (p :: rs ++ ps) s = .next (afterCycles (p :: rs ++ ps) s) :=
    runOn_cons_eq_afterCycles hbegun (rs ++ ps)
  refine ⟨fun hhigh => ⟨_, hrun, ?_⟩, fun hlow hslot => ⟨_, hrun, ?_⟩, _, observe_next hbegun, rfl, rfl, rfl⟩
  · have hout := out_afterCycles_of_rst hrst hnr (hhigh.trans (by decide)) s
    rw [hout 0, hout 1, hout 2]
    simp [hhigh]
  · have hout := out_afterCycles_of_rst hrst hnr hslot s
    rw [hout 0, hout 1, hout 2]
    simp [hlow]

end Machine

end Sys2Proof
